-- ==== Sys2Proof/Word.lean ====
section
/-! DEFINITION. The word types of the block (00_scope.md R5, R6, R7) and the ordered tuple of four.

Every value is an unsigned integer of a stated width (R7); bit 0 is the least significant bit. -/

namespace Sys2Proof

/-- A 2-bit group, an unsigned integer in [0, 3] (R5 GRPW). -/
abbrev BitGroup := BitVec 2

/-- A channel value, an unsigned integer in [0, 255] (R5 CHW). -/
abbrev Byte := BitVec 8

/-- A 24-bit pixel word, laid out by R9: red in bits 7:0, green in 15:8, blue in 23:16. -/
abbrev Pixel := BitVec 24

/-- A host register or a CMD word (R6 REGW). -/
abbrev Word := BitVec 32

/-- A host register number (R6 NREG, R23). -/
abbrev RegNum := BitVec 5

/-- A grid dimension or data coordinate of DIMW = 16 bits (R6; log entry 1). -/
abbrev Dim := BitVec 16

/-- An output dimension or GO coordinate of DIMW + 1 bits (R31, R60). -/
abbrev ODim := BitVec 17

/-- An ordered tuple of four, element 0 first: the four groups of a byte, the four bytes of a merge, the
four pixels of a block (R9: "element k of any ordered tuple sits in lane k"). -/
structure Quad (α : Type) where
  e0 : α
  e1 : α
  e2 : α
  e3 : α
deriving DecidableEq, Repr

/-- Element `k` of the tuple, `k` taken modulo 4. -/
def Quad.get {α : Type} (q : Quad α) (k : Nat) : α :=
  match k % 4 with
  | 0 => q.e0
  | 1 => q.e1
  | 2 => q.e2
  | _ => q.e3

/-- One function on all four elements. -/
def Quad.map {α β : Type} (f : α → β) (q : Quad α) : Quad β :=
  ⟨f q.e0, f q.e1, f q.e2, f q.e3⟩

end Sys2Proof
end

