-- ==== Sys2Proof/Config.lean ====
section
/-! DEFINITION. What an implementation fixes (00_scope.md R5, R6) and the one free value of the model. -/

namespace Sys2Proof

/-- The three grid spaces, disjoint by construction (10_state.md R39, 20_memory.md R60). -/
inductive GridSpace where
  | ga
  | gb
  | go
deriving DecidableEq, Repr

namespace Config

/-- Width in bits of a grid dimension and of a data coordinate: the value R6 decides (log entry 1). -/
abbrev DIMW : Nat := 16

/-- Mask of the carrier bits kept by `truncate_low_bits` (R5 KEEP). -/
def KEEP : Byte := 0b11111100#8

/-- FREE VALUE: what a coordinate of a grid space reads as while nothing in the run has written it.
10_state.md R41 and 93_implementation_defined.md U6 leave it to "any value", so nothing here says which
(log entry 2). It is a function of the space and the coordinate alone, because R62 lets a read be
repeated with the same result. -/
opaque unwrittenPixel : GridSpace → Nat → Nat → Pixel

end Config

end Sys2Proof
end

