-- ==== Sys2Proof/Syntax.lean ====
section
/-! DEFINITION. The ten commands (30_encoding.md R93), one constructor per row of the opcode table. -/

namespace Sys2Proof

/-- A host command. A command word carries no operand (R90): operands are taken from the OP registers or
the dimension registers at the step the command is issued (R92), so no constructor has an argument. -/
inductive Instr where
  /-- R230, format N. -/
  | nop
  /-- R123, format B. -/
  | split
  /-- R124, format B. -/
  | trunc
  /-- R142, format G4. -/
  | combine
  /-- R152, format BB. -/
  | merge
  /-- R162, format B4. -/
  | extract
  /-- R172, format PP. -/
  | encblk
  /-- R202, format P4. -/
  | decblk
  /-- R173, format GE. -/
  | encode
  /-- R203, format GD. -/
  | decode
deriving DecidableEq, Repr

end Sys2Proof
end

