-- ==== Sys2Proof/WellFormed.lean ====
section
/-! DEFINITION. Well-formedness of a command word (30_encoding.md R90, R91) and of an instruction. -/

namespace Sys2Proof

/-- R90: the `zero` field, bits 31:4, must be 0. -/
def zeroFieldOk (v : Word) : Bool := v.extractLsb' 4 28 == 0#28

/-- R91, R94: the `op` field, bits 3:0, is one of 0x0 to 0x9. -/
def opFieldOk (v : Word) : Bool := decide ((v.extractLsb' 0 4).toNat ≤ 9)

/-- A CMD word that stands for a command: both checks of R91. -/
def wellFormedWord (v : Word) : Bool := zeroFieldOk v && opFieldOk v

/-- Every term of `Instr` is well-formed: a command has no operand field that could be out of range (R90). -/
def Instr.wellFormed (i : Instr) : Bool :=
  match i with
  | .nop => true
  | .split => true
  | .trunc => true
  | .combine => true
  | .merge => true
  | .extract => true
  | .encblk => true
  | .decblk => true
  | .encode => true
  | .decode => true

end Sys2Proof
end

