-- ==== Sys2Proof/Decode.lean ====
section
/-! DEFINITION. Decoding a CMD word (30_encoding.md R90, R91, R93 to R97) and encoding a command. -/

namespace Sys2Proof

/-- Why a CMD word is no command. Both raise ILLEGAL_CMD (60_exceptions.md R251). -/
inductive Illegal where
  /-- R95: some bit of 31:4 is set, whatever `op` is. -/
  | nonzeroField (zero : BitVec 28)
  /-- R94: `zero` is 0 and `op` is 0xA to 0xF. -/
  | reservedOp (op : BitVec 4)
deriving DecidableEq, Repr

/-- What a CMD word decodes to. -/
inductive Decoded where
  | command (i : Instr)
  | illegal (why : Illegal)
deriving DecidableEq, Repr

/-- The command of an `op` code, the table of R93; 0xA to 0xF are reserved (R94). -/
def decodeOp (op : BitVec 4) : Decoded :=
  match op.toNat with
  | 0 => .command .nop
  | 1 => .command .split
  | 2 => .command .trunc
  | 3 => .command .combine
  | 4 => .command .merge
  | 5 => .command .extract
  | 6 => .command .encblk
  | 7 => .command .decblk
  | 8 => .command .encode
  | 9 => .command .decode
  | _ => .illegal (.reservedOp op)

/-- `Decode(v)` of R91: total, and a function of the word alone. -/
def decode (v : Word) : Decoded :=
  if zeroFieldOk v then decodeOp (v.extractLsb' 0 4) else .illegal (.nonzeroField (v.extractLsb' 4 28))

/-- The CMD word of a command, the third column of R93's table. -/
def encode (i : Instr) : Word :=
  match i with
  | .nop => 0x00000000#32
  | .split => 0x00000001#32
  | .trunc => 0x00000002#32
  | .combine => 0x00000003#32
  | .merge => 0x00000004#32
  | .extract => 0x00000005#32
  | .encblk => 0x00000006#32
  | .decblk => 0x00000007#32
  | .encode => 0x00000008#32
  | .decode => 0x00000009#32

/-- The decoder on an opcode-table row's bits. A command is one 32-bit word (R90), so bits above `nbits`
are 0 and an item of more than 32 significant bits is no command. -/
def decodeTableWord (nbits w : Nat) : Option Instr :=
  if w % 2 ^ nbits < 2 ^ 32 then
    match decode (BitVec.ofNat 32 (w % 2 ^ nbits)) with
    | .command i => some i
    | .illegal _ => none
  else none

end Sys2Proof
end

