-- ==== Sys2Proof/Machine/State.lean ====
section
/-! DEFINITION. The state of the machine: every piece of 10_state.md R20, the three grid spaces, and the
model's own fields for the agents outside the block (HOST, PLATFORM, the `rst` line; 00_scope.md R12). -/

namespace Sys2Proof.Machine

/-- STATUS.MODE: which grid command was accepted last (R27); 0 ENCODE, 1 DECODE. -/
inductive Mode where
  | encode
  | decode
deriving DecidableEq, Repr

/-- STATUS.CAUSE (60_exceptions.md R251). Codes 4 to 15 are never produced, and a model's CAUSE type has
exactly these four values (93_implementation_defined.md U10). -/
inductive Cause where
  /-- 0 NONE: no error recorded. -/
  | none
  /-- 1 ILLEGAL_CMD: a CMD word that is no command. -/
  | illegalCmd
  /-- 2 CMD_WHILE_BUSY: a command other than NOP while STATUS.BUSY = 1. -/
  | cmdWhileBusy
  /-- 3 OPERAND_RANGE: COMBINE with a lane of OP0 above 3. -/
  | operandRange
deriving DecidableEq, Repr

/-- One pixel of a grid store at the coordinate `(x, y)` (20_memory.md R60). -/
structure Cell where
  x : Nat
  y : Nat
  pix : Pixel
deriving DecidableEq, Repr

/-- A grid store: the pixels written so far, in raster order with no coordinate twice
(`Grid.wf`, Ops.lean); a coordinate not listed reads as the free value `Config.unwrittenPixel`. -/
abbrev Grid := List Cell

/-- The named host registers, the table of 10_state.md R23. -/
inductive HostReg where
  | cmd
  | status
  | ctrl
  | aW
  | aH
  | bW
  | bH
  | oW
  | oH
  | dataW
  | dataH
  | curI
  | curJ
  | errCmd
  | op0
  | op1
  | op2
  | op3
  | res0
  | res1
  | res2
  | res3
deriving DecidableEq, Repr

/-- One atomic move of an agent (00_scope.md R12, 20_memory.md R70). Which agent moves next is the order
of the list `State.inputs` (log entry 3). -/
inductive Move where
  /-- HOST: `RD`, the bus access (we = 0, addr = n) of R231. -/
  | read (n : RegNum)
  /-- HOST: `WR`, the bus access (we = 1, addr = n, wdata = v) of R232. -/
  | write (n : RegNum) (v : Word)
  /-- HOST: one poll of the pseudo-instruction `WAIT` of 30_encoding.md R99 (log entry 4). -/
  | wait
  /-- ENGINE: its turn; a step only while STATUS.BUSY = 1 (R236, log entry 5). -/
  | engine
  /-- PLATFORM: `SETPIX GA, x, y, p` (R99). -/
  | setGA (x y : Dim) (p : Pixel)
  /-- PLATFORM: `SETPIX GB, x, y, p` (R99). -/
  | setGB (x y : Dim) (p : Pixel)
  /-- PLATFORM: a write of its own store GO, which it owns again once BUSY = 0 (R238). -/
  | setGO (x y : ODim) (p : Pixel)
  /-- PLATFORM: `GETPIX GO, x, y` (R99), allowed at any time (R238). -/
  | getGO (x y : ODim)
  /-- The `rst` line goes to 1 (R290). If an engine step is cut short, its first `landed` pixel writes have
  happened (R292, log entry 7). -/
  | assertReset (landed : Nat)
  /-- The `rst` line goes back to 0. -/
  | releaseReset
deriving DecidableEq, Repr

/-- The whole state. The fields down to `go` are the architectural state of R20; the last four are the
model's own (log entries 3, 6 and 8). -/
structure State where
  /-- OP0, register 0x10 (R22). -/
  op0 : Word
  /-- OP1, register 0x11 (R22). -/
  op1 : Word
  /-- OP2, register 0x12 (R22). -/
  op2 : Word
  /-- OP3, register 0x13 (R22). -/
  op3 : Word
  /-- RES0, register 0x14 (R22). -/
  res0 : Word
  /-- RES1, register 0x15 (R22). -/
  res1 : Word
  /-- RES2, register 0x16 (R22). -/
  res2 : Word
  /-- RES3, register 0x17 (R22). -/
  res3 : Word
  /-- STATUS.BUSY, bit 0 (R27). -/
  busy : Bool
  /-- STATUS.DONE, bit 1 (R27). -/
  done : Bool
  /-- STATUS.ERR, bit 2 (R27). -/
  err : Bool
  /-- STATUS.MODE, bit 3 (R27). -/
  mode : Mode
  /-- STATUS.CAUSE, bits 7:4 (R27). -/
  cause : Cause
  /-- CTRL.DONE_IE, bit 0 (R29). -/
  doneIe : Bool
  /-- CTRL.ERR_IE, bit 1 (R29). -/
  errIe : Bool
  /-- A_W, register 0x03 (R30). -/
  aW : Dim
  /-- A_H, register 0x04 (R30). -/
  aH : Dim
  /-- B_W, register 0x05 (R30). -/
  bW : Dim
  /-- B_H, register 0x06 (R30). -/
  bH : Dim
  /-- O_W, register 0x07 (R31). -/
  oW : ODim
  /-- O_H, register 0x08 (R31). -/
  oH : ODim
  /-- DATA_W, register 0x09 (R32). -/
  dataW : Dim
  /-- DATA_H, register 0x0A (R32). -/
  dataH : Dim
  /-- CUR_I, register 0x0B (R33). -/
  curI : Dim
  /-- CUR_J, register 0x0C (R33). -/
  curJ : Dim
  /-- ERR_CMD, register 0x0D (R34). -/
  errCmd : Word
  /-- The grid space GA, platform-owned (R39, R60). -/
  ga : Grid
  /-- The grid space GB, platform-owned (R39, R60). -/
  gb : Grid
  /-- The grid space GO, platform-owned (R39, R60). -/
  go : Grid
  /-- MODEL'S OWN: the level of the input `rst` (R42, R290; log entry 6). -/
  rst : Bool
  /-- MODEL'S OWN: the moves still to come, next first (log entry 3). -/
  inputs : List Move
  /-- MODEL'S OWN: the word the HOST's last `RD` returned on `reg_rdata` (R24, R42; log entry 8). -/
  rdData : Word
  /-- MODEL'S OWN: the pixel the PLATFORM's last `GETPIX` returned (R99; log entry 8). -/
  gpData : Pixel
deriving DecidableEq, Repr

/-- Reasons the machine stops with a fault. There is none: the transforms "are total functions" (R250),
no grid access can fault (R62 to R64), and the three errors of R251 are recorded in STATUS and the
machine goes on. -/
inductive Fault where
deriving DecidableEq, Repr

/-- Reasons the model gives no next state. -/
inductive Refusal where
  /-- Raised by `exec` for a command that has no meaning in the model yet. No arm does. Safe. -/
  | notModelled (mnemonic : String)
  /-- Raised by the moves `setGA`, `setGB` and `setGO` while STATUS.BUSY = 1: "the model gives the platform
  no write move while BUSY = 1" (93_implementation_defined.md U4, 70_reset_and_hazards.md R296, R297). No
  command raises it. Safe: the machine stops where a real platform would break its obligation. -/
  | platformWriteWhileBusy
deriving DecidableEq, Repr

/-- The machine right after reset: 10_state.md R41, every register and flag 0. The grid stores list
nothing, so every coordinate reads as the free value (U6, log entry 2); no move is pending and `rst` is
back at 0. -/
def State.reset : State where
  op0 := 0#32
  op1 := 0#32
  op2 := 0#32
  op3 := 0#32
  res0 := 0#32
  res1 := 0#32
  res2 := 0#32
  res3 := 0#32
  busy := false
  done := false
  err := false
  mode := .encode
  cause := .none
  doneIe := false
  errIe := false
  aW := 0#16
  aH := 0#16
  bW := 0#16
  bH := 0#16
  oW := 0#17
  oH := 0#17
  dataW := 0#16
  dataH := 0#16
  curI := 0#16
  curJ := 0#16
  errCmd := 0#32
  ga := []
  gb := []
  go := []
  rst := false
  inputs := []
  rdData := 0#32
  gpData := 0#24

end Sys2Proof.Machine
end

