-- ==== Sys2Proof/Machine/Ops.lean ====
section
/-! DEFINITION. The shared operations: the grid stores, the named register updates, recording an error,
issuing a command, accepting a grid command, advancing the scan, and the reset action. -/

namespace Sys2Proof.Machine

/-! ### The grid stores (20_memory.md R60 to R63) -/

/-- `a` lies before `b` in raster order: y slowest, x fastest. -/
def Cell.before (a b : Cell) : Bool :=
  decide (a.y < b.y ∨ (a.y = b.y ∧ a.x < b.x))

/-- The pixel written last at `(x, y)`, if any was. -/
def Grid.find (x y : Nat) (g : Grid) : Option Pixel :=
  match g with
  | [] => none
  | c :: rest => if c.x = x ∧ c.y = y then some c.pix else Grid.find x y rest

/-- Store `p` at `(x, y)`, replacing what was there (R63). -/
def Grid.put (x y : Nat) (p : Pixel) (g : Grid) : Grid :=
  match g with
  | [] => [⟨x, y, p⟩]
  | c :: rest =>
    if c.x = x ∧ c.y = y then ⟨x, y, p⟩ :: rest
    else if y < c.y ∨ (y = c.y ∧ x < c.x) then ⟨x, y, p⟩ :: c :: rest
    else c :: Grid.put x y p rest

/-- The writes of `ws`, first to last. -/
def Grid.putAll (ws : List Cell) (g : Grid) : Grid :=
  match ws with
  | [] => g
  | w :: rest => Grid.putAll rest (Grid.put w.x w.y w.pix g)

/-- The canonical form of a store whose coordinates are below `lim` on both axes: strictly rising in
raster order, so that stores with the same pixels written are equal lists. -/
def Grid.wf (lim : Nat) (g : Grid) : Bool :=
  match g with
  | [] => true
  | c :: rest =>
    decide (c.x < lim) && decide (c.y < lim) && rest.all (fun d => c.before d) && Grid.wf lim rest

/-- The store of a grid space. -/
def State.grid (sp : GridSpace) (s : State) : Grid :=
  match sp with
  | .ga => s.ga
  | .gb => s.gb
  | .go => s.go

/-- What the store of `sp` answers at `(x, y)`: the pixel written last, else the free value. It always
answers with 24 bits (R62). -/
def State.pixel (sp : GridSpace) (x y : Nat) (s : State) : Pixel :=
  match (s.grid sp).find x y with
  | some p => p
  | none => Config.unwrittenPixel sp x y

/-! ### Named register updates -/

/-- Write RES0. -/
@[simps] def State.setRes0 (v : Word) (s : State) : State := { s with res0 := v }

/-- Write RES0 to RES3. -/
@[simps] def State.setRes (q : Quad Word) (s : State) : State :=
  { s with res0 := q.e0, res1 := q.e1, res2 := q.e2, res3 := q.e3 }

/-- Write OP0. -/
@[simps] def State.setOp0 (v : Word) (s : State) : State := { s with op0 := v }

/-- Write OP1. -/
@[simps] def State.setOp1 (v : Word) (s : State) : State := { s with op1 := v }

/-- Write OP2. -/
@[simps] def State.setOp2 (v : Word) (s : State) : State := { s with op2 := v }

/-- Write OP3. -/
@[simps] def State.setOp3 (v : Word) (s : State) : State := { s with op3 := v }

/-- Write A_W. -/
@[simps] def State.setAW (d : Dim) (s : State) : State := { s with aW := d }

/-- Write A_H. -/
@[simps] def State.setAH (d : Dim) (s : State) : State := { s with aH := d }

/-- Write B_W. -/
@[simps] def State.setBW (d : Dim) (s : State) : State := { s with bW := d }

/-- Write B_H. -/
@[simps] def State.setBH (d : Dim) (s : State) : State := { s with bH := d }

/-- Write CTRL. -/
@[simps] def State.setCtrl (doneIe errIe : Bool) (s : State) : State :=
  { s with doneIe := doneIe, errIe := errIe }

/-- STATUS.DONE <- 0. -/
@[simps] def State.clearDone (s : State) : State := { s with done := false }

/-- STATUS.ERR <- 0 and STATUS.CAUSE <- 0; ERR_CMD is not changed (R28). -/
@[simps] def State.clearErr (s : State) : State := { s with err := false, cause := .none }

/-- Write the error record: STATUS.CAUSE, ERR_CMD and STATUS.ERR (R253). -/
@[simps] def State.record (c : Cause) (v : Word) (s : State) : State :=
  { s with cause := c, errCmd := v, err := true }

/-- Latch a grid command: DATA_W, DATA_H, O_W, O_H, STATUS.MODE, and the scan position at (0, 0). -/
@[simps] def State.latch (m : Mode) (dw dh : Dim) (ow oh : ODim) (s : State) : State :=
  { s with dataW := dw, dataH := dh, oW := ow, oH := oh, mode := m, curI := 0#16, curJ := 0#16 }

/-- STATUS.DONE <- 1. -/
@[simps] def State.setDone (s : State) : State := { s with done := true }

/-- STATUS.DONE <- 0 and STATUS.BUSY <- 1: the engine now has steps. -/
@[simps] def State.start (s : State) : State := { s with done := false, busy := true }

/-- STATUS.BUSY <- 0 and STATUS.DONE <- 1: the end of a grid command. -/
@[simps] def State.finish (s : State) : State := { s with busy := false, done := true }

/-- The scan position, `pc <- (i, j)` of R236. -/
@[simps] def State.setCur (i j : Dim) (s : State) : State := { s with curI := i, curJ := j }

/-- Replace the store GA. -/
@[simps] def State.setGa (g : Grid) (s : State) : State := { s with ga := g }

/-- Replace the store GB. -/
@[simps] def State.setGb (g : Grid) (s : State) : State := { s with gb := g }

/-- Replace the store GO. -/
@[simps] def State.setGo (g : Grid) (s : State) : State := { s with go := g }

/-- The level of the `rst` line. -/
@[simps] def State.setRst (b : Bool) (s : State) : State := { s with rst := b }

/-- The moves still to come. -/
@[simps] def State.setInputs (ms : List Move) (s : State) : State := { s with inputs := ms }

/-- The word an RD returned. -/
@[simps] def State.setRd (v : Word) (s : State) : State := { s with rdData := v }

/-- The pixel a GETPIX returned. -/
@[simps] def State.setGp (p : Pixel) (s : State) : State := { s with gpData := p }

/-- Every register and flag of the block at its reset value; the grid stores and the model's own fields
stay (R290). -/
@[simps] def State.clearRegs (s : State) : State :=
  { State.reset with
    ga := s.ga, gb := s.gb, go := s.go
    rst := s.rst, inputs := s.inputs, rdData := s.rdData, gpData := s.gpData }

/-! ### Errors and command issue -/

/-- `raise <Error>(v)` of 60_exceptions.md R253: the record is written only if STATUS.ERR = 0 (first
error wins); nothing else changes and control goes nowhere. There is no return from it (R255): the host
clears the record with a write to STATUS (`statusWrite`, Flags.lean). -/
def raise (c : Cause) (v : Word) (s : State) : State :=
  if s.err then s else s.record c v

/-- The busy check of IssueCommand (46_host_commands.md R233): a legal command other than NOP is refused
with CMD_WHILE_BUSY while STATUS.BUSY = 1, otherwise it has its effect. -/
def issue (i : Instr) (effect : State → State) (s : State) : Host.Outcome State Fault Refusal :=
  .next (if s.busy then raise .cmdWhileBusy (encode i) s else effect s)

/-! ### Grid commands -/

/-- Acceptance of a grid command with the data region `dw` by `dh`, the shared tail of R173 and R203: an
empty region finishes at once, otherwise the engine has steps. -/
def accept (m : Mode) (dw dh : Dim) (ow oh : ODim) (s : State) : State :=
  if dw = 0#16 ∨ dh = 0#16 then (s.latch m dw dh ow oh).setDone else (s.latch m dw dh ow oh).start

/-- Advance the scan position in raster order, the second half of EngineStep (R236). -/
def advance (s : State) : State :=
  if s.curI.toNat + 1 < s.dataW.toNat then s.setCur (s.curI + 1#16) s.curJ
  else if s.curJ.toNat + 1 < s.dataH.toNat then s.setCur 0#16 (s.curJ + 1#16)
  else s.finish

/-- The unsigned minimum of two dimensions (00_scope.md R10 (c)). -/
def minDim (a b : Dim) : Dim := if a.toNat ≤ b.toNat then a else b

/-- `2*d` as the (DIMW+1)-bit value `{d, 0}` (R10 (d)). -/
def twiceDim (d : Dim) : ODim := BitVec.ofNat 17 (2 * d.toNat)

/-- `d // 2`, which drops bit 0 (R10 (e)). -/
def halfDim (d : Dim) : Dim := BitVec.ofNat 16 (d.toNat / 2)

end Sys2Proof.Machine
end

