-- ==== Sys2Proof/Machine/Operands.lean ====
section
/-! DEFINITION. Lanes, pixel packing (00_scope.md R9) and the operand and result formats of
30_encoding.md R92. Bits a format does not name are not read, and result bits it does not name are 0. -/

namespace Sys2Proof.Machine

/-- Byte lane `k` of a word: bits `8k+7 : 8k`. -/
def lane (k : Nat) (w : Word) : Byte := w.extractLsb' (8 * k) 8

/-- The four byte lanes of a word, lane 0 first. -/
def lanes (w : Word) : Quad Byte := ⟨lane 0 w, lane 1 w, lane 2 w, lane 3 w⟩

/-- `pack4(b0, b1, b2, b3) = {b3, b2, b1, b0}`. -/
def pack4 (q : Quad Byte) : Word := q.e3 ++ q.e2 ++ q.e1 ++ q.e0

/-- `pix(r, g, b) = {b, g, r}`. -/
def pix (r g b : Byte) : Pixel := b ++ g ++ r

/-- `chan_c(p)`: channel 0 red, 1 green, 2 blue, bits `8c+7 : 8c`. -/
def chan (c : Nat) (p : Pixel) : Byte := p.extractLsb' (8 * c) 8

/-- Formats B: `value = OP0[7:0]`. -/
def operandByte (s : State) : Byte := lane 0 s.op0

/-- Format G4: `g_k = OP0[8k+1 : 8k]`. -/
def operandGroups (s : State) : Quad BitGroup := (lanes s.op0).map (fun b => b.extractLsb' 0 2)

/-- Format G4's domain check: every `hi_k = OP0[8k+7 : 8k+2]` is 0 (41_bit_group_reassembler.md R142). -/
def operandGroupsInDomain (s : State) : Bool :=
  lane 0 s.op0 &&& 0xFC#8 == 0#8 && lane 1 s.op0 &&& 0xFC#8 == 0#8 &&
  lane 2 s.op0 &&& 0xFC#8 == 0#8 && lane 3 s.op0 &&& 0xFC#8 == 0#8

/-- Format BB: `carrier = OP0[7:0]`. -/
def operandCarrier (s : State) : Byte := lane 0 s.op0

/-- Format BB: `secret = OP0[15:8]`. -/
def operandSecret (s : State) : Byte := lane 1 s.op0

/-- Format B4: `values[k] = OP0[8k+7 : 8k]`. -/
def operandBytes (s : State) : Quad Byte := lanes s.op0

/-- A pixel operand: bits 23:0 of an OP register. -/
def pixelOf (w : Word) : Pixel := w.extractLsb' 0 24

/-- Format PP: the carrier pixel `p = OP0[23:0]`. -/
def operandP (s : State) : Pixel := pixelOf s.op0

/-- Format PP: the secret pixel `q = OP1[23:0]`. -/
def operandQ (s : State) : Pixel := pixelOf s.op1

/-- Format P4: `p1..p4 = OP0..OP3[23:0]`. -/
def operandBlock (s : State) : Quad Pixel :=
  ⟨pixelOf s.op0, pixelOf s.op1, pixelOf s.op2, pixelOf s.op3⟩

/-- SPLIT's result: `g_k` in bits `8k+1 : 8k`, every other bit 0. -/
def resultGroups (q : Quad BitGroup) : Word := pack4 (q.map (fun g => g.setWidth 8))

/-- A byte result: `zext_32`. -/
def resultByte (b : Byte) : Word := b.setWidth 32

/-- A pixel result: `zext_32`. -/
def resultPixel (p : Pixel) : Word := p.setWidth 32

end Sys2Proof.Machine
end

