-- ==== Sys2Proof/Machine/Flags.lean ====
section
/-! DEFINITION. STATUS, CTRL and the interrupt line (10_state.md R27 to R29, R36, R37). -/

namespace Sys2Proof.Machine

/-- The CAUSE code (60_exceptions.md R251). -/
def Cause.code (c : Cause) : BitVec 4 :=
  match c with
  | .none => 0#4
  | .illegalCmd => 1#4
  | .cmdWhileBusy => 2#4
  | .operandRange => 3#4

/-- STATUS bit 3: 0 ENCODE, 1 DECODE (R27). -/
def Mode.bit (m : Mode) : Bool :=
  match m with
  | .encode => false
  | .decode => true

/-- STATUS as read: `{24'b0, CAUSE[3:0], MODE, ERR, DONE, BUSY}` (R23, R27). -/
def statusWord (s : State) : Word :=
  0#24 ++ s.cause.code ++ BitVec.ofBool s.mode.bit ++ BitVec.ofBool s.err ++ BitVec.ofBool s.done ++
    BitVec.ofBool s.busy

/-- `StatusWrite(v)` of R28: write-one-to-clear on bits 1 and 2, every other bit ignored. -/
def statusWrite (v : Word) (s : State) : State :=
  let s1 := if v.getLsbD 1 then s.clearDone else s
  if v.getLsbD 2 then s1.clearErr else s1

/-- CTRL as read: `{30'b0, ERR_IE, DONE_IE}` (R23). -/
def ctrlWord (s : State) : Word :=
  0#30 ++ BitVec.ofBool s.errIe ++ BitVec.ofBool s.doneIe

/-- A write to CTRL keeps bits 1:0 (R25, R29). -/
def ctrlWrite (v : Word) (s : State) : State := s.setCtrl (v.getLsbD 0) (v.getLsbD 1)

/-- The interrupt line, a function of STATUS and CTRL (R37). -/
def irq (s : State) : Bool := (s.done && s.doneIe) || (s.err && s.errIe)

end Sys2Proof.Machine
end

