-- ==== Sys2Proof/Machine/Reassembler.lean ====
section
/-! DEFINITION. The bit_group_reassembler unit (41_bit_group_reassembler.md): `combine` and COMBINE. -/

namespace Sys2Proof.Machine

/-- `combine(g0, g1, g2, g3)` of R140: `(g0<<6)|(g1<<4)|(g2<<2)|g3`. It takes 2-bit groups only and is
defined on nothing wider (R144); it is also the unit's one output port `bgr_value` (R141). -/
def combine (g : Quad BitGroup) : Byte :=
  (g.e0.setWidth 8 <<< 6) ||| (g.e1.setWidth 8 <<< 4) ||| (g.e2.setWidth 8 <<< 2) ||| g.e3.setWidth 8

/-- COMBINE (R142): OPERAND_RANGE if a lane of OP0 is above 3, else the byte. -/
def execCombine (s : State) : Host.Outcome State Fault Refusal :=
  issue .combine
    (fun s =>
      if operandGroupsInDomain s then s.setRes0 (resultByte (combine (operandGroups s)))
      else raise .operandRange (encode .combine) s)
    s

end Sys2Proof.Machine
end

