-- ==== Sys2Proof/Machine/Extractor.lean ====
section
/-! DEFINITION. The channel_extractor unit (43_channel_extractor.md): `extract` and EXTRACT. -/

namespace Sys2Proof.Machine

/-- `extract(v0, v1, v2, v3)` of R160: the low two bits of each value, reassembled; also the unit's
output port `ce_out` (R161). -/
def extract (v : Quad Byte) : Byte := combine (v.map (fun b => (b &&& 0b11#8).setWidth 2))

/-- EXTRACT (R162). -/
def execExtract (s : State) : Host.Outcome State Fault Refusal :=
  issue .extract (fun s => s.setRes0 (resultByte (extract (operandBytes s)))) s

end Sys2Proof.Machine
end

