-- ==== Sys2Proof/Machine/Decoder.lean ====
section
/-! DEFINITION. The stego_decoder_datapath unit (45_stego_decoder_datapath.md): `dec_block`, DECBLK, the
acceptance of DECODE and its per-coordinate body. -/

namespace Sys2Proof.Machine

/-- `dec_block(p1, p2, p3, p4)` of R200: one extract per channel; also the unit's output port `dec_out`
(R201). -/
def decBlock (p : Quad Pixel) : Pixel :=
  pix (extract (p.map (chan 0))) (extract (p.map (chan 1))) (extract (p.map (chan 2)))

/-- DECBLK (R202). -/
def execDecblk (s : State) : Host.Outcome State Fault Refusal :=
  issue .decblk (fun s => s.setRes0 (resultPixel (decBlock (operandBlock s)))) s

/-- DECODE, acceptance (R203): the data region is half the encoded grid, rounded down. -/
def execDecode (s : State) : Host.Outcome State Fault Refusal :=
  issue .decode
    (fun s =>
      accept .decode (halfDim s.aW) (halfDim s.aH)
        ((halfDim s.aW).setWidth 17) ((halfDim s.aH).setWidth 17) s)
    s

/-- The four reads of `DecodeBody(i, j)` (R204), p1 to p4. -/
def decodeReads (i j : Nat) (s : State) : Quad Pixel :=
  ⟨s.pixel .ga (2 * i) (2 * j), s.pixel .ga (2 * i + 1) (2 * j),
   s.pixel .ga (2 * i) (2 * j + 1), s.pixel .ga (2 * i + 1) (2 * j + 1)⟩

/-- The grid write of `DecodeBody(i, j)` (R204). -/
def decodeWrites (i j : Nat) (s : State) : List Cell := [⟨i, j, decBlock (decodeReads i j s)⟩]

end Sys2Proof.Machine
end

