-- ==== Sys2Proof/Machine/Splitter.lean ====
section
/-! DEFINITION. The bit_group_splitter unit (40_bit_group_splitter.md): `split`, `truncate_low_bits`,
SPLIT and TRUNC. -/

namespace Sys2Proof.Machine

/-- `split(value)` of R120: four groups, most significant pair first. -/
def split (value : Byte) : Quad BitGroup where
  e0 := ((value >>> 6) &&& 0b11#8).setWidth 2
  e1 := ((value >>> 4) &&& 0b11#8).setWidth 2
  e2 := ((value >>> 2) &&& 0b11#8).setWidth 2
  e3 := (value &&& 0b11#8).setWidth 2

/-- `truncate_low_bits(value)` of R121: `value & 0b11111100`. -/
def truncateLowBits (value : Byte) : Byte := value &&& Config.KEEP

/-- The output ports of the unit (R122): `bgs_g0` to `bgs_g3` and `bgs_trunc`, a function of `bgs_value`. -/
def bgsUnit (bgsValue : Byte) : Quad BitGroup × Byte := (split bgsValue, truncateLowBits bgsValue)

/-- SPLIT (R123). -/
def execSplit (s : State) : Host.Outcome State Fault Refusal :=
  issue .split (fun s => s.setRes0 (resultGroups (bgsUnit (operandByte s)).1)) s

/-- TRUNC (R124). -/
def execTrunc (s : State) : Host.Outcome State Fault Refusal :=
  issue .trunc (fun s => s.setRes0 (resultByte (bgsUnit (operandByte s)).2)) s

end Sys2Proof.Machine
end

