-- ==== Sys2Proof/Machine/Merger.lean ====
section
/-! DEFINITION. The channel_merger unit (42_channel_merger.md): `merge` and MERGE. -/

namespace Sys2Proof.Machine

/-- `merge(carrier, secret)` of R150: `out_i = base + g_i`, group 0 first; also the unit's output ports
`cm_out0` to `cm_out3` (R151). -/
def merge (carrier secret : Byte) : Quad Byte :=
  (split secret).map (fun g => truncateLowBits carrier + g.setWidth 8)

/-- MERGE (R152). -/
def execMerge (s : State) : Host.Outcome State Fault Refusal :=
  issue .merge (fun s => s.setRes0 (pack4 (merge (operandCarrier s) (operandSecret s)))) s

end Sys2Proof.Machine
end

