-- ==== Sys2Proof/Machine/Encoder.lean ====
section
/-! DEFINITION. The stego_encoder_datapath unit (44_stego_encoder_datapath.md): `enc_block`, ENCBLK, the
acceptance of ENCODE and its per-coordinate body. -/

namespace Sys2Proof.Machine

/-- `enc_block(p, q)` of R170: one merge per channel, and block pixel k takes element k of each; also the
unit's output ports `enc_b0` to `enc_b3` (R171). -/
def encBlock (p q : Pixel) : Quad Pixel :=
  let r := merge (chan 0 p) (chan 0 q)
  let g := merge (chan 1 p) (chan 1 q)
  let b := merge (chan 2 p) (chan 2 q)
  ⟨pix r.e0 g.e0 b.e0, pix r.e1 g.e1 b.e1, pix r.e2 g.e2 b.e2, pix r.e3 g.e3 b.e3⟩

/-- ENCBLK (R172). -/
def execEncblk (s : State) : Host.Outcome State Fault Refusal :=
  issue .encblk (fun s => s.setRes ((encBlock (operandP s) (operandQ s)).map resultPixel)) s

/-- ENCODE, acceptance (R173): the data region is the overlap of carrier and secret. -/
def execEncode (s : State) : Host.Outcome State Fault Refusal :=
  issue .encode
    (fun s =>
      accept .encode (minDim s.aW s.bW) (minDim s.aH s.bH)
        (twiceDim (minDim s.aW s.bW)) (twiceDim (minDim s.aH s.bH)) s)
    s

/-- The grid writes of `EncodeBody(i, j)` (R174), in block-index order, to the block coordinates of R179.
All its reads precede them. -/
def encodeWrites (i j : Nat) (s : State) : List Cell :=
  let b := encBlock (s.pixel .ga i j) (s.pixel .gb i j)
  [⟨2 * i, 2 * j, b.e0⟩, ⟨2 * i + 1, 2 * j, b.e1⟩, ⟨2 * i, 2 * j + 1, b.e2⟩, ⟨2 * i + 1, 2 * j + 1, b.e3⟩]

end Sys2Proof.Machine
end

