-- ==== Sys2Proof/Machine/Engine.lean ====
section
/-! DEFINITION. The engine (46_host_commands.md R236) and the reset line (70_reset_and_hazards.md R290,
R292). -/

namespace Sys2Proof.Machine

/-- The grid writes of the engine step at the scan position, chosen by STATUS.MODE (R236). -/
def engineWrites (s : State) : List Cell :=
  match s.mode with
  | .encode => encodeWrites s.curI.toNat s.curJ.toNat s
  | .decode => decodeWrites s.curI.toNat s.curJ.toNat s

/-- `EngineStep` of R236: the body at the scan position, then the advance. -/
def engineStep (s : State) : State := advance (s.setGo (Grid.putAll (engineWrites s) s.go))

/-- The engine's turn: a step exactly when STATUS.BUSY = 1 (R236), otherwise none (log entry 5). -/
def engineTurn (s : State) : State := if s.busy then engineStep s else s

/-- The pixel writes of a cut-short engine step that have happened when `rst` strikes: the first `landed`
of them, none if the engine has no step (R292, log entry 7). -/
def landedWrites (landed : Nat) (s : State) : List Cell :=
  if s.busy then (engineWrites s).take landed else []

/-- `rst` goes to 1: every register and flag of the block takes its reset value, the grid stores stay but
for the writes that had landed, and the line is held (R290, R292). -/
def assertReset (landed : Nat) (s : State) : State :=
  ((s.setGo (Grid.putAll (landedWrites landed s) s.go)).clearRegs).setRst true

/-- `rst` goes back to 0. -/
def releaseReset (s : State) : State := s.setRst false

end Sys2Proof.Machine
end

