-- ==== Sys2Proof/Machine/Nop.lean ====
section
/-! DEFINITION. The no-operation command (46_host_commands.md R230). -/

namespace Sys2Proof.Machine

/-- NOP (R230): nothing, and the one command accepted while STATUS.BUSY = 1. -/
def execNop (s : State) : Host.Outcome State Fault Refusal := .next s

end Sys2Proof.Machine
end

