-- ==== Sys2Proof/Machine/Dispatch.lean ====
section
/-! DEFINITION. One arm per command (30_encoding.md R93, the case of 46_host_commands.md R233). -/

namespace Sys2Proof.Machine

def exec (i : Instr) (s : State) : Host.Outcome State Fault Refusal :=
  match i with
  | .nop => Sys2Proof.Machine.execNop s
  | .split => Sys2Proof.Machine.execSplit s
  | .trunc => Sys2Proof.Machine.execTrunc s
  | .combine => Sys2Proof.Machine.execCombine s
  | .merge => Sys2Proof.Machine.execMerge s
  | .extract => Sys2Proof.Machine.execExtract s
  | .encblk => Sys2Proof.Machine.execEncblk s
  | .decblk => Sys2Proof.Machine.execDecblk s
  | .encode => Sys2Proof.Machine.execEncode s
  | .decode => Sys2Proof.Machine.execDecode s

end Sys2Proof.Machine
end

