-- ==== Sys2Proof/Machine/Registers.lean ====
section
/-! DEFINITION. The host register file: the register map, RegRead, and RegWrite of every register but CMD
(10_state.md R23 to R25, R35). -/

namespace Sys2Proof.Machine

/-- The register of a number, the table of R23; 0x0E, 0x0F and 0x18 to 0x1F are reserved (R35). -/
def HostReg.ofNumber (n : RegNum) : Option HostReg :=
  match n.toNat with
  | 0x00 => some .cmd
  | 0x01 => some .status
  | 0x02 => some .ctrl
  | 0x03 => some .aW
  | 0x04 => some .aH
  | 0x05 => some .bW
  | 0x06 => some .bH
  | 0x07 => some .oW
  | 0x08 => some .oH
  | 0x09 => some .dataW
  | 0x0A => some .dataH
  | 0x0B => some .curI
  | 0x0C => some .curJ
  | 0x0D => some .errCmd
  | 0x10 => some .op0
  | 0x11 => some .op1
  | 0x12 => some .op2
  | 0x13 => some .op3
  | 0x14 => some .res0
  | 0x15 => some .res1
  | 0x16 => some .res2
  | 0x17 => some .res3
  | _ => none

/-- The number of a register, the table of R23. -/
def HostReg.number (r : HostReg) : RegNum :=
  match r with
  | .cmd => 0x00#5
  | .status => 0x01#5
  | .ctrl => 0x02#5
  | .aW => 0x03#5
  | .aH => 0x04#5
  | .bW => 0x05#5
  | .bH => 0x06#5
  | .oW => 0x07#5
  | .oH => 0x08#5
  | .dataW => 0x09#5
  | .dataH => 0x0A#5
  | .curI => 0x0B#5
  | .curJ => 0x0C#5
  | .errCmd => 0x0D#5
  | .op0 => 0x10#5
  | .op1 => 0x11#5
  | .op2 => 0x12#5
  | .op3 => 0x13#5
  | .res0 => 0x14#5
  | .res1 => 0x15#5
  | .res2 => 0x16#5
  | .res3 => 0x17#5

/-- The "contents read" of a register, the fourth column of R23's table. -/
def HostReg.contents (r : HostReg) (s : State) : Word :=
  match r with
  | .cmd => 0#32
  | .status => statusWord s
  | .ctrl => ctrlWord s
  | .aW => s.aW.setWidth 32
  | .aH => s.aH.setWidth 32
  | .bW => s.bW.setWidth 32
  | .bH => s.bH.setWidth 32
  | .oW => s.oW.setWidth 32
  | .oH => s.oH.setWidth 32
  | .dataW => s.dataW.setWidth 32
  | .dataH => s.dataH.setWidth 32
  | .curI => s.curI.setWidth 32
  | .curJ => s.curJ.setWidth 32
  | .errCmd => s.errCmd
  | .op0 => s.op0
  | .op1 => s.op1
  | .op2 => s.op2
  | .op3 => s.op3
  | .res0 => s.res0
  | .res1 => s.res1
  | .res2 => s.res2
  | .res3 => s.res3

/-- `RegRead(n)` of R24: the contents read; a reserved number reads 0 (R35). No register has a side effect
on read. -/
def regRead (n : RegNum) (s : State) : Word :=
  match HostReg.ofNumber n with
  | some r => r.contents s
  | none => 0#32

/-- The effect of `RegWrite` on a register other than CMD (R25). A write to a read-only register has no
effect and records no error (R35). CMD is `issueCommand` (HostPort.lean). -/
def HostReg.writeData (r : HostReg) (v : Word) (s : State) : State :=
  match r with
  | .cmd => s
  | .status => statusWrite v s
  | .ctrl => ctrlWrite v s
  | .aW => s.setAW (v.setWidth 16)
  | .aH => s.setAH (v.setWidth 16)
  | .bW => s.setBW (v.setWidth 16)
  | .bH => s.setBH (v.setWidth 16)
  | .oW => s
  | .oH => s
  | .dataW => s
  | .dataH => s
  | .curI => s
  | .curJ => s
  | .errCmd => s
  | .op0 => s.setOp0 v
  | .op1 => s.setOp1 v
  | .op2 => s.setOp2 v
  | .op3 => s.setOp3 v
  | .res0 => s
  | .res1 => s
  | .res2 => s
  | .res3 => s

end Sys2Proof.Machine
end

