-- ==== Sys2Proof/Machine/HostPort.lean ====
section
/-! DEFINITION. The register port and the moves of the agents: IssueCommand and RegWrite
(46_host_commands.md R231 to R233), the platform's accesses (R238) and one move of the list. -/

namespace Sys2Proof.Machine

/-- `IssueCommand(v)` of R233: an illegal word raises ILLEGAL_CMD, a command has its meaning. -/
def issueCommand (v : Word) (s : State) : Host.Outcome State Fault Refusal :=
  match decode v with
  | .illegal _ => .next (raise .illegalCmd v s)
  | .command i => exec i s

/-- `RegWrite(n, v)` of 10_state.md R25. -/
def regWrite (n : RegNum) (v : Word) (s : State) : Host.Outcome State Fault Refusal :=
  match HostReg.ofNumber n with
  | some .cmd => issueCommand v s
  | some r => .next (r.writeData v s)
  | none => .next s

/-- A host write. While `rst` stays 1 the block ignores register accesses (R290). -/
def hostWrite (n : RegNum) (v : Word) (s : State) : Host.Outcome State Fault Refusal :=
  if s.rst then .next s else regWrite n v s

/-- A host read. The block is unchanged (R24); what it answers is kept in the model's own `rdData`. While
`rst` stays 1 the registers hold the reset values, and those are read (R290). -/
def hostRead (n : RegNum) (s : State) : State := s.setRd (regRead n s)

/-- One poll of `WAIT` (30_encoding.md R99): read STATUS; while bit 0 (BUSY) is 1, poll again after the
engine's next turn (log entry 4). -/
def hostWait (s : State) : State :=
  if s.busy then (hostRead 0x01#5 s).setInputs (.engine :: .wait :: s.inputs) else hostRead 0x01#5 s

/-- A platform write: only while STATUS.BUSY = 0 (10_state.md R39, R238, U4). -/
def platformWrite (write : State → State) (s : State) : Host.Outcome State Fault Refusal :=
  if s.busy then .refused .platformWriteWhileBusy else .next (write s)

/-- One atomic move. The move itself has already left the list. -/
def applyMove (m : Move) (s : State) : Host.Outcome State Fault Refusal :=
  match m with
  | .read n => .next (hostRead n s)
  | .write n v => hostWrite n v s
  | .wait => .next (hostWait s)
  | .engine => .next (engineTurn s)
  | .setGA x y p => platformWrite (fun s => s.setGa (s.ga.put x.toNat y.toNat p)) s
  | .setGB x y p => platformWrite (fun s => s.setGb (s.gb.put x.toNat y.toNat p)) s
  | .setGO x y p => platformWrite (fun s => s.setGo (s.go.put x.toNat y.toNat p)) s
  | .getGO x y => .next (s.setGp (s.pixel .go x.toNat y.toNat))
  | .assertReset landed => .next (assertReset landed s)
  | .releaseReset => .next (releaseReset s)

/-- `CMD <MNEMONIC>` of R99: a write of the command's word to CMD. -/
def Move.command (i : Instr) : Move := .write 0x00#5 (encode i)

/-- `CLRDONE` of R99. -/
def Move.clrDone : Move := .write 0x01#5 0x00000002#32

/-- `CLRERR` of R99. -/
def Move.clrErr : Move := .write 0x01#5 0x00000004#32

/-- The next move of the machine. With no move left in the list the engine takes its turn: an enabled
engine step is eventually taken (R237), and an idle block stays as it is (60_exceptions.md R268). -/
def nextMove (s : State) : Host.Outcome State Fault Refusal :=
  match s.inputs with
  | [] => .next (engineTurn s)
  | m :: rest => applyMove m (s.setInputs rest)

/-- The state in which the next move is the HOST's write of the given opcode-table word to CMD, with `rst`
released so that the write is not ignored. A word of more than 32 bits is cut to 32 (R66). -/
def fetchWord (nbits w : Nat) (s : State) : State :=
  (s.setRst false).setInputs (.write 0x00#5 (BitVec.ofNat 32 (w % 2 ^ nbits)) :: s.inputs)

end Sys2Proof.Machine
end

