-- ==== Sys2Proof/Machine/Step.lean ====
section
/-! DEFINITION. One step of the machine: one atomic move of one agent (00_scope.md R12, 20_memory.md R70). -/

namespace Sys2Proof.Machine

/-- One step. -/
def step (s : State) : Host.Outcome State Fault Refusal := nextMove s

/-- `s` with the instruction of the given word placed where the next step takes its command from: a HOST
write to CMD at the head of the list of moves (log entry 9). -/
def State.withFetchWord (s : State) (nbits w : Nat) : State := fetchWord nbits w s

end Sys2Proof.Machine
end

