-- ==== Sys2Proof/Safety.lean ====
section
/-! DEFINITION. The terms claims are stated in: what a refused command leaves behind, which parts of two
states agree, the invariant of the machine, and how far a running grid command has come. -/

namespace Sys2Proof.Machine

/-! ### Safe steps -/

/-- The step completes: it answers a next state. -/
def Completes (s : State) : Prop := ∃ t, step s = .next t

/-- The move writes a grid store from outside, which is forbidden while STATUS.BUSY = 1
(70_reset_and_hazards.md R296, R297; U4). -/
def Move.isPlatformWrite (m : Move) : Bool :=
  match m with
  | .read _ => false
  | .write _ _ => false
  | .wait => false
  | .engine => false
  | .setGA _ _ _ => true
  | .setGB _ _ _ => true
  | .setGO _ _ _ => true
  | .getGO _ _ => false
  | .assertReset _ => false
  | .releaseReset => false

/-- The move is a reset. -/
def Move.isReset (m : Move) : Bool :=
  match m with
  | .read _ => false
  | .write _ _ => false
  | .wait => false
  | .engine => false
  | .setGA _ _ _ => false
  | .setGB _ _ _ => false
  | .setGO _ _ _ => false
  | .getGO _ _ => false
  | .assertReset _ => true
  | .releaseReset => false

/-! ### What a refused command leaves behind (60_exceptions.md R253) -/

/-- `t` is `s` with the error recorded: CAUSE, ERR_CMD and ERR written if ERR was 0, nothing otherwise. -/
def ErrorRecorded (c : Cause) (v : Word) (s t : State) : Prop :=
  (s.err = false → t = { s with err := true, cause := c, errCmd := v }) ∧ (s.err = true → t = s)

/-- A CMD word of R94 or R95: a bit of 31:4 is set, or `op` is 0xA to 0xF. -/
def IllegalWord (v : Word) : Prop :=
  v.extractLsb' 4 28 ≠ 0#28 ∨ 10 ≤ (v.extractLsb' 0 4).toNat

/-! ### Parts of the state that agree -/

/-- OP0 to OP3. -/
def OpSame (s t : State) : Prop :=
  t.op0 = s.op0 ∧ t.op1 = s.op1 ∧ t.op2 = s.op2 ∧ t.op3 = s.op3

/-- RES0 to RES3. -/
def ResSame (s t : State) : Prop :=
  t.res0 = s.res0 ∧ t.res1 = s.res1 ∧ t.res2 = s.res2 ∧ t.res3 = s.res3

/-- STATUS.BUSY and STATUS.DONE. -/
def RunFlagsSame (s t : State) : Prop := t.busy = s.busy ∧ t.done = s.done

/-- STATUS.ERR, STATUS.CAUSE and ERR_CMD. -/
def ErrSame (s t : State) : Prop := t.err = s.err ∧ t.cause = s.cause ∧ t.errCmd = s.errCmd

/-- CTRL. -/
def CtrlSame (s t : State) : Prop := t.doneIe = s.doneIe ∧ t.errIe = s.errIe

/-- A_W, A_H, B_W, B_H. -/
def InDimsSame (s t : State) : Prop := t.aW = s.aW ∧ t.aH = s.aH ∧ t.bW = s.bW ∧ t.bH = s.bH

/-- STATUS.MODE, O_W, O_H, DATA_W, DATA_H: what the acceptance of a grid command latches. -/
def LatchSame (s t : State) : Prop :=
  t.mode = s.mode ∧ t.oW = s.oW ∧ t.oH = s.oH ∧ t.dataW = s.dataW ∧ t.dataH = s.dataH

/-- CUR_I, CUR_J. -/
def CurSame (s t : State) : Prop := t.curI = s.curI ∧ t.curJ = s.curJ

/-- The fields outside the block: the `rst` line, the moves to come, what RD and GETPIX returned last. -/
def OutsideSame (s t : State) : Prop :=
  t.rst = s.rst ∧ t.inputs = s.inputs ∧ t.rdData = s.rdData ∧ t.gpData = s.gpData

/-- Every pixel of all three grid spaces reads as before. -/
def PixelsSame (s t : State) : Prop := ∀ sp x y, t.pixel sp x y = s.pixel sp x y

/-! ### The invariant of the machine -/

/-- What holds of every state a run from reset reaches. -/
structure State.Inv (s : State) : Prop where
  /-- The grid stores are in canonical form, inside their coordinate ranges (R60). -/
  gaWf : s.ga.wf (2 ^ Config.DIMW) = true
  gbWf : s.gb.wf (2 ^ Config.DIMW) = true
  goWf : s.go.wf (2 ^ (Config.DIMW + 1)) = true
  /-- While BUSY = 1 the scan position is a data coordinate (10_state.md R33, R236). -/
  scanInRange : s.busy = true → s.curI.toNat < s.dataW.toNat ∧ s.curJ.toNat < s.dataH.toNat
  /-- DONE is cleared at acceptance and set at the end, so BUSY and DONE are never both 1 (R27). -/
  notBoth : s.busy = true → s.done = false
  /-- At rest the scan position is the last data coordinate, or (0, 0) for an empty region (R33, R175). -/
  scanAtRest : s.busy = false →
    (s.dataW.toNat = 0 ∨ s.dataH.toNat = 0 → s.curI.toNat = 0 ∧ s.curJ.toNat = 0) ∧
    (s.dataW.toNat ≠ 0 ∧ s.dataH.toNat ≠ 0 →
      s.curI.toNat + 1 = s.dataW.toNat ∧ s.curJ.toNat + 1 = s.dataH.toNat)
  /-- CAUSE is 0 exactly when ERR = 0 (R27). -/
  causeIffErr : s.cause = .none ↔ s.err = false
  /-- ERR_CMD is a word that raises the recorded cause (R34, R251). -/
  errCmdFits : (s.cause = .illegalCmd → IllegalWord s.errCmd) ∧
    (s.cause = .cmdWhileBusy → ∃ i, i ≠ Instr.nop ∧ s.errCmd = encode i) ∧
    (s.cause = .operandRange → s.errCmd = encode .combine)
  /-- O_W, O_H are the output dimensions of the latched data region (R31, R176, R206). -/
  outDims : (s.mode = .encode → s.oW.toNat = 2 * s.dataW.toNat ∧ s.oH.toNat = 2 * s.dataH.toNat) ∧
    (s.mode = .decode → s.oW.toNat = s.dataW.toNat ∧ s.oH.toNat = s.dataH.toNat ∧
      2 * s.dataW.toNat < 2 ^ Config.DIMW ∧ 2 * s.dataH.toNat < 2 ^ Config.DIMW)
  /-- While the `rst` line is held at 1 every register holds its reset value (R290). -/
  heldInReset : s.rst = true → s.clearRegs = s

/-! ### Progress of a grid command -/

/-- The data coordinate `(i, j)` has been processed by the grid command latched in `s`: it lies in the
data region and, while the engine still runs, before the scan position in raster order (R33, R70 (c)). -/
def Passed (s : State) (i j : Nat) : Prop :=
  i < s.dataW.toNat ∧ j < s.dataH.toNat ∧
    (s.busy = true → j < s.curJ.toNat ∨ (j = s.curJ.toNat ∧ i < s.curI.toNat))

/-- An ENCODE accepted in the state `a` has come as far as `s` shows: the latched region is the overlap,
the inputs are as they were, and GO holds the block of every data coordinate passed (R174, R179) and its
old pixels elsewhere (R70 (c), R77). -/
structure EncodeProgress (a s : State) : Prop where
  mode : s.mode = .encode
  dataW : s.dataW.toNat = min a.aW.toNat a.bW.toNat
  dataH : s.dataH.toNat = min a.aH.toNat a.bH.toNat
  gaSame : ∀ x y, s.pixel .ga x y = a.pixel .ga x y
  gbSame : ∀ x y, s.pixel .gb x y = a.pixel .gb x y
  written : ∀ i j k, Passed s i j → k < 4 →
    s.pixel .go (2 * i + k % 2) (2 * j + k / 2) = (encBlock (a.pixel .ga i j) (a.pixel .gb i j)).get k
  kept : ∀ x y, ¬ Passed s (x / 2) (y / 2) → s.pixel .go x y = a.pixel .go x y

/-- A DECODE accepted in the state `a` has come as far as `s` shows (R204, R205). -/
structure DecodeProgress (a s : State) : Prop where
  mode : s.mode = .decode
  dataW : s.dataW.toNat = a.aW.toNat / 2
  dataH : s.dataH.toNat = a.aH.toNat / 2
  gaSame : ∀ x y, s.pixel .ga x y = a.pixel .ga x y
  gbSame : ∀ x y, s.pixel .gb x y = a.pixel .gb x y
  written : ∀ i j, Passed s i j →
    s.pixel .go i j = decBlock ⟨a.pixel .ga (2 * i) (2 * j), a.pixel .ga (2 * i + 1) (2 * j),
      a.pixel .ga (2 * i) (2 * j + 1), a.pixel .ga (2 * i + 1) (2 * j + 1)⟩
  kept : ∀ x y, ¬ Passed s x y → s.pixel .go x y = a.pixel .go x y

end Sys2Proof.Machine
end

