-- ==== Sys2Proof/Certificates/Slice0/Obligations.lean ====
section
/-! DEFINITION. The statements for the provers, in the order of the spec's files. -/

open Sys2Proof Sys2Proof.Machine

/-! ### The command word (30_encoding.md) -/

/-- 30_encoding.md section 3: the ten CMD words, written out from the table of R93. -/
def Obligations.CommandWordsDecode : Prop :=
  decode 0x00000000#32 = .command .nop ∧ decode 0x00000001#32 = .command .split ∧
  decode 0x00000002#32 = .command .trunc ∧ decode 0x00000003#32 = .command .combine ∧
  decode 0x00000004#32 = .command .merge ∧ decode 0x00000005#32 = .command .extract ∧
  decode 0x00000006#32 = .command .encblk ∧ decode 0x00000007#32 = .command .decblk ∧
  decode 0x00000008#32 = .command .encode ∧ decode 0x00000009#32 = .command .decode

/-- R97, R91: every one of the 2^32 CMD words is either exactly one command's word or illegal, and it is a
command's exactly when bits 31:4 are 0 and bits 3:0 are at most 9. Decode and encode agree both ways. -/
def Obligations.DecodeEncodeAgree : Prop :=
  ∀ v : Word,
    (∀ i, decode v = .command i ↔ v = encode i) ∧
    ((∃ i, decode v = .command i) ↔ v.extractLsb' 4 28 = 0#28 ∧ (v.extractLsb' 0 4).toNat ≤ 9) ∧
    ((∃ w, decode v = .illegal w) ↔ IllegalWord v)

/-- R94, R95: an illegal word written to CMD raises ILLEGAL_CMD and has no other effect, whatever BUSY is. -/
def Obligations.IllegalWordOnlyRaises : Prop :=
  ∀ (s : State) (v : Word), IllegalWord v →
    ∃ t, regWrite 0x00#5 v s = .next t ∧ ErrorRecorded .illegalCmd v s t

/-! ### Steps (46_host_commands.md section 2, 20_memory.md section 3) -/

/-- A step runs the decoded instruction: when the next move is a HOST write of a command's word to CMD, the
step is that command's meaning in the state whose list has lost the move; while `rst` is held at 1 (R290)
the block ignores the write and the step only takes the move off the list. -/
def Obligations.StepRunsDecodedCommand : Prop :=
  ∀ (s : State) (v : Word) (i : Instr) (rest : List Move),
    s.inputs = .write 0x00#5 v :: rest → decode v = .command i →
    (s.rst = false → step s = exec i { s with inputs := rest }) ∧
    (s.rst = true → step s = .next { s with inputs := rest })

/-- The host's entry (log entry 9): the very next step after placing a command's word runs that command. -/
def Obligations.PlacedWordRuns : Prop :=
  ∀ (s : State) (i : Instr),
    decodeTableWord 32 (encode i).toNat = some i ∧
    step (s.withFetchWord 32 (encode i).toNat) = exec i { s with rst := false }

/-- The interleaving (log entry 3): a step is the first move of the list on the state without it; with no
move left the engine takes its turn; and a step stops nowhere but at a platform write while BUSY = 1. -/
def Obligations.StepIsTheNextMove : Prop :=
  ∀ s : State,
    (∀ m rest, s.inputs = m :: rest → step s = applyMove m { s with inputs := rest }) ∧
    (s.inputs = [] → step s = .next (engineTurn s)) ∧
    ((∀ m rest, s.inputs = m :: rest → m.isPlatformWrite = true → s.busy = false) → Completes s) ∧
    (∀ m rest, s.inputs = m :: rest → m.isPlatformWrite = true → s.busy = true →
      step s = .refused .platformWriteWhileBusy)

/-! ### The pure functions (40 to 45) -/

/-- R125, R126: the groups cover the byte exactly once; truncation and group 3 make up the byte;
truncation is idempotent and clears group 3 only. -/
def Obligations.SplitCoversByte : Prop :=
  ∀ v : Byte,
    (split v).e0 ++ (split v).e1 ++ (split v).e2 ++ (split v).e3 = v ∧
    combine (split v) = v ∧
    truncateLowBits v + (split v).e3.setWidth 8 = v ∧
    truncateLowBits (truncateLowBits v) = truncateLowBits v ∧
    split (truncateLowBits v) = { split v with e3 := 0#2 }

/-- R143: split and combine are inverse, as functions and as commands. -/
def Obligations.CombineInvertsSplit : Prop :=
  (∀ v : Byte, combine (split v) = v) ∧
  (∀ g : Quad BitGroup, split (combine g) = g) ∧
  ∀ s t : State, s.busy = false → exec .split s = .next t →
    exec .combine { t with op0 := t.res0 } =
      .next { t with op0 := t.res0, res0 := (s.op0.extractLsb' 0 8).setWidth 32 }

/-- R153, R154: every output of `merge` keeps the carrier's top six bits, carries its group in the low two,
lies within 3 of the carrier rounded down to a multiple of 4 (so within 3 of the carrier), and does not
depend on the carrier's low two bits. -/
def Obligations.MergeKeepsCarrierTop : Prop :=
  ∀ (c s : Byte) (k : Nat), k < 4 →
    (merge c s).get k &&& 0b11111100#8 = c &&& 0b11111100#8 ∧
    (merge c s).get k &&& 0b11#8 = ((split s).get k).setWidth 8 ∧
    4 * (c.toNat / 4) ≤ ((merge c s).get k).toNat ∧
    ((merge c s).get k).toNat ≤ 4 * (c.toNat / 4) + 3 ∧
    |(((merge c s).get k).toNat : Int) - c.toNat| ≤ 3 ∧
    ∀ c' : Byte, c'.extractLsb' 2 6 = c.extractLsb' 2 6 → merge c' s = merge c s

/-- R163, R164: `extract` recovers the secret byte from `merge`, looks at bits 1:0 of its inputs only, and
what `merge` leaves does not determine the carrier. -/
def Obligations.ExtractInvertsMerge : Prop :=
  (∀ c s : Byte, extract (merge c s) = s) ∧
  (∀ v w : Quad Byte,
    (∀ k, k < 4 → (v.get k).extractLsb' 0 2 = (w.get k).extractLsb' 0 2) → extract v = extract w) ∧
  (∀ c : Byte, ∃ c', c' ≠ c ∧ ∀ s, merge c' s = merge c s)

/-- R170: channel c of block pixel k is the carrier channel's bits 7:2 above group k of the secret
channel; the channels do not mix. -/
def Obligations.EncBlockChannels : Prop :=
  ∀ (p q : Pixel) (c k : Nat), c < 3 → k < 4 →
    chan c ((encBlock p q).get k) =
      (chan c p).extractLsb' 2 6 ++ (chan c q).extractLsb' (6 - 2 * k) 2

/-- R200: channel c of the recovered pixel is made of bits 1:0 of channel c of the four block pixels. -/
def Obligations.DecBlockChannels : Prop :=
  ∀ (p : Quad Pixel) (c : Nat), c < 3 →
    chan c (decBlock p) =
      (chan c p.e0).extractLsb' 0 2 ++ (chan c p.e1).extractLsb' 0 2 ++
        (chan c p.e2).extractLsb' 0 2 ++ (chan c p.e3).extractLsb' 0 2

/-- R207 per block and R208: the secret pixel comes back from its block, whatever the carrier pixel, and
the top six bits of the block's channels do not matter. -/
def Obligations.DecBlockInvertsEncBlock : Prop :=
  (∀ p q : Pixel, decBlock (encBlock p q) = q) ∧
  (∀ a b : Quad Pixel,
    (∀ c k, c < 3 → k < 4 →
      (chan c (a.get k)).extractLsb' 0 2 = (chan c (b.get k)).extractLsb' 0 2) →
    decBlock a = decBlock b)

/-! ### The commands -/

/-- R230: NOP does nothing, in every state, BUSY included; its word is 0x00000000 and 0x00000010 is illegal. -/
def Obligations.NopDoesNothing : Prop :=
  (∀ s : State, exec .nop s = .next s ∧ (s.rst = false → hostWrite 0x00#5 0x00000000#32 s = .next s)) ∧
  IllegalWord 0x00000010#32 ∧ decode 0x00000010#32 ≠ .command .nop

/-- R123: SPLIT puts group k of OP0[7:0] in lane k of RES0, every other bit 0, and changes nothing else;
while BUSY = 1 it is refused. -/
def Obligations.SplitWritesGroups : Prop :=
  ∀ s : State,
    (s.busy = false → exec .split s = .next { s with
      res0 := 0#6 ++ s.op0.extractLsb' 0 2 ++ (0#6 ++ s.op0.extractLsb' 2 2) ++
        (0#6 ++ s.op0.extractLsb' 4 2) ++ (0#6 ++ s.op0.extractLsb' 6 2) }) ∧
    (s.busy = true → ∃ t, exec .split s = .next t ∧ ErrorRecorded .cmdWhileBusy 0x00000001#32 s t) ∧
    decode 0x00000001#32 = .command .split

/-- R124: TRUNC puts OP0[7:0] with bits 1:0 cleared in RES0, and changes nothing else; while BUSY = 1 it is
refused. -/
def Obligations.TruncClearsLowBits : Prop :=
  ∀ s : State,
    (s.busy = false → exec .trunc s = .next { s with
      res0 := 0#24 ++ s.op0.extractLsb' 2 6 ++ 0#2 }) ∧
    (s.busy = true → ∃ t, exec .trunc s = .next t ∧ ErrorRecorded .cmdWhileBusy 0x00000002#32 s t) ∧
    decode 0x00000002#32 = .command .trunc

/-- R142: COMBINE joins the four groups in the lanes of OP0, refuses with OPERAND_RANGE if some lane is
above 3, and changes nothing else; while BUSY = 1 it is refused before the operand is looked at. -/
def Obligations.CombineJoinsGroups : Prop :=
  ∀ s : State,
    (s.busy = false → (∀ k, k < 4 → (s.op0.extractLsb' (8 * k) 8).toNat ≤ 3) →
      exec .combine s = .next { s with
        res0 := 0#24 ++ s.op0.extractLsb' 0 2 ++ s.op0.extractLsb' 8 2 ++ s.op0.extractLsb' 16 2 ++
          s.op0.extractLsb' 24 2 }) ∧
    (s.busy = false → (∃ k, k < 4 ∧ 3 < (s.op0.extractLsb' (8 * k) 8).toNat) →
      ∃ t, exec .combine s = .next t ∧ ErrorRecorded .operandRange 0x00000003#32 s t) ∧
    (s.busy = true → ∃ t, exec .combine s = .next t ∧ ErrorRecorded .cmdWhileBusy 0x00000003#32 s t) ∧
    decode 0x00000003#32 = .command .combine

/-- R152: MERGE puts `{carrier[7:2], secret group k}` in lane k of RES0, with carrier OP0[7:0] and secret
OP0[15:8], and changes nothing else; while BUSY = 1 it is refused. -/
def Obligations.MergeWritesLanes : Prop :=
  ∀ s : State,
    (s.busy = false → exec .merge s = .next { s with
      res0 := s.op0.extractLsb' 2 6 ++ s.op0.extractLsb' 8 2 ++
        (s.op0.extractLsb' 2 6 ++ s.op0.extractLsb' 10 2) ++
        (s.op0.extractLsb' 2 6 ++ s.op0.extractLsb' 12 2) ++
        (s.op0.extractLsb' 2 6 ++ s.op0.extractLsb' 14 2) }) ∧
    (s.busy = true → ∃ t, exec .merge s = .next t ∧ ErrorRecorded .cmdWhileBusy 0x00000004#32 s t) ∧
    decode 0x00000004#32 = .command .merge

/-- R162: EXTRACT joins bits 1:0 of the four lanes of OP0, lane 0 first, in RES0, on every OP0, and changes
nothing else; while BUSY = 1 it is refused. -/
def Obligations.ExtractJoinsLowBits : Prop :=
  ∀ s : State,
    (s.busy = false → exec .extract s = .next { s with
      res0 := 0#24 ++ s.op0.extractLsb' 0 2 ++ s.op0.extractLsb' 8 2 ++ s.op0.extractLsb' 16 2 ++
        s.op0.extractLsb' 24 2 }) ∧
    (s.busy = true → ∃ t, exec .extract s = .next t ∧ ErrorRecorded .cmdWhileBusy 0x00000005#32 s t) ∧
    decode 0x00000005#32 = .command .extract

/-- R172: ENCBLK puts block pixel k in RES_k[23:0], bits 31:24 being 0: each channel is the carrier's bits
7:2 (OP0) above group k of the secret's channel (OP1); nothing else changes; while BUSY = 1 it is refused. -/
def Obligations.EncblkWritesBlock : Prop :=
  ∀ s : State,
    let block (k : Nat) : Word :=
      0#8 ++ (s.op0.extractLsb' 18 6 ++ s.op1.extractLsb' (22 - 2 * k) 2) ++
        (s.op0.extractLsb' 10 6 ++ s.op1.extractLsb' (14 - 2 * k) 2) ++
        (s.op0.extractLsb' 2 6 ++ s.op1.extractLsb' (6 - 2 * k) 2)
    (s.busy = false → exec .encblk s = .next { s with
      res0 := block 0, res1 := block 1, res2 := block 2, res3 := block 3 }) ∧
    (s.busy = true → ∃ t, exec .encblk s = .next t ∧ ErrorRecorded .cmdWhileBusy 0x00000006#32 s t) ∧
    decode 0x00000006#32 = .command .encblk

/-- R202: DECBLK puts the recovered pixel in RES0[23:0], bits 31:24 being 0: each channel is made of bits
1:0 of that channel of OP0 to OP3; nothing else changes; while BUSY = 1 it is refused. RES0 to RES3 of an
ENCBLK copied to OP0 to OP3 give back the secret pixel. -/
def Obligations.DecblkWritesPixel : Prop :=
  (∀ s t : State, s.busy = false → exec .encblk s = .next t →
    exec .decblk { t with op0 := t.res0, op1 := t.res1, op2 := t.res2, op3 := t.res3 } =
      .next { t with
        op0 := t.res0, op1 := t.res1, op2 := t.res2, op3 := t.res3
        res0 := 0#8 ++ s.op1.extractLsb' 0 24 }) ∧
  ∀ s : State,
    let channel (c : Nat) : Byte :=
      s.op0.extractLsb' (8 * c) 2 ++ s.op1.extractLsb' (8 * c) 2 ++ s.op2.extractLsb' (8 * c) 2 ++
        s.op3.extractLsb' (8 * c) 2
    (s.busy = false → exec .decblk s = .next { s with
      res0 := 0#8 ++ channel 2 ++ channel 1 ++ channel 0 }) ∧
    (s.busy = true → ∃ t, exec .decblk s = .next t ∧ ErrorRecorded .cmdWhileBusy 0x00000007#32 s t) ∧
    decode 0x00000007#32 = .command .decblk

/-- R173, R176, R177: acceptance of ENCODE latches the overlap and twice its size, puts the scan at (0, 0)
and MODE at 0, and either starts the engine or, on an empty overlap, sets DONE at once with BUSY 0; it
changes nothing else, no pixel and no error record included; while BUSY = 1 it is refused. -/
def Obligations.EncodeAcceptance : Prop :=
  ∀ s : State,
    let dw : Dim := if s.aW.toNat ≤ s.bW.toNat then s.aW else s.bW
    let dh : Dim := if s.aH.toNat ≤ s.bH.toNat then s.aH else s.bH
    (s.busy = false → ¬ (dw = 0#16 ∨ dh = 0#16) → exec .encode s = .next { s with
      dataW := dw, dataH := dh, oW := dw ++ 0#1, oH := dh ++ 0#1, mode := .encode,
      curI := 0#16, curJ := 0#16, done := false, busy := true }) ∧
    (s.busy = false → dw = 0#16 ∨ dh = 0#16 → exec .encode s = .next { s with
      dataW := dw, dataH := dh, oW := dw ++ 0#1, oH := dh ++ 0#1, mode := .encode,
      curI := 0#16, curJ := 0#16, done := true }) ∧
    (dw ++ 0#1 : BitVec (16 + 1)).toNat = 2 * min s.aW.toNat s.bW.toNat ∧
    (dh ++ 0#1 : BitVec (16 + 1)).toNat = 2 * min s.aH.toNat s.bH.toNat ∧
    (s.busy = true → ∃ t, exec .encode s = .next t ∧ ErrorRecorded .cmdWhileBusy 0x00000008#32 s t) ∧
    decode 0x00000008#32 = .command .encode

/-- R203: acceptance of DECODE latches half the encoded grid, rounded down, as data region and as output,
puts the scan at (0, 0) and MODE at 1, and either starts the engine or, on an empty region, sets DONE at
once with BUSY 0; it changes nothing else; while BUSY = 1 it is refused. -/
def Obligations.DecodeAcceptance : Prop :=
  ∀ s : State,
    (s.busy = false → ¬ (s.aW >>> 1 = 0#16 ∨ s.aH >>> 1 = 0#16) → exec .decode s = .next { s with
      dataW := s.aW >>> 1, dataH := s.aH >>> 1, oW := 0#1 ++ s.aW >>> 1, oH := 0#1 ++ s.aH >>> 1,
      mode := .decode, curI := 0#16, curJ := 0#16, done := false, busy := true }) ∧
    (s.busy = false → s.aW >>> 1 = 0#16 ∨ s.aH >>> 1 = 0#16 → exec .decode s = .next { s with
      dataW := s.aW >>> 1, dataH := s.aH >>> 1, oW := 0#1 ++ s.aW >>> 1, oH := 0#1 ++ s.aH >>> 1,
      mode := .decode, curI := 0#16, curJ := 0#16, done := true }) ∧
    (s.aW >>> 1).toNat = s.aW.toNat / 2 ∧ (s.aH >>> 1).toNat = s.aH.toNat / 2 ∧
    (s.busy = true → ∃ t, exec .decode s = .next t ∧ ErrorRecorded .cmdWhileBusy 0x00000009#32 s t) ∧
    decode 0x00000009#32 = .command .decode

/-! ### Frames -/

/-- R22, R234, R67: the frame of NOP and the seven scalar commands, accepted or refused. They complete in
their step and leave every operand, dimension, scan and latched register, BUSY, DONE, CTRL, every pixel and
everything outside the block alone; only ENCBLK writes RES1 to RES3, a refused command and NOP write no RES
register, and only a refusal writes the error record. -/
def Obligations.ScalarCommandFrame : Prop :=
  ∀ (i : Instr) (s : State), i ≠ .encode → i ≠ .decode →
    ∃ t, exec i s = .next t ∧
      OpSame s t ∧ RunFlagsSame s t ∧ CtrlSame s t ∧ InDimsSame s t ∧ LatchSame s t ∧ CurSame s t ∧
      OutsideSame s t ∧ PixelsSame s t ∧
      (i ≠ .encblk → t.res1 = s.res1 ∧ t.res2 = s.res2 ∧ t.res3 = s.res3) ∧
      (s.busy = true ∨ i = .nop → ResSame s t) ∧
      (s.busy = false → i ≠ .combine → ErrSame s t) ∧
      (s.busy = false → s.op0 &&& 0xFCFCFCFC#32 = 0#32 → ErrSame s t) ∧
      (t.res0 = s.res0 ∨ ErrSame s t)

/-- R22, R173, R203: the frame of ENCODE and DECODE. They write no OP and no RES register, no CTRL, no
input dimension and no pixel; accepted, they leave the error record; refused, they leave everything but
the error record. -/
def Obligations.GridCommandFrame : Prop :=
  ∀ (i : Instr) (s : State), i = .encode ∨ i = .decode →
    ∃ t, exec i s = .next t ∧
      OpSame s t ∧ ResSame s t ∧ CtrlSame s t ∧ InDimsSame s t ∧ OutsideSame s t ∧ PixelsSame s t ∧
      (s.busy = false → ErrSame s t) ∧
      (s.busy = true → RunFlagsSame s t ∧ LatchSame s t ∧ CurSame s t)

/-! ### Errors (60_exceptions.md) -/

/-- R295: a command other than NOP written while BUSY = 1 is refused with CMD_WHILE_BUSY, the command did
not run, and the running grid command is undisturbed: the engine's next step does what it would have done. -/
def Obligations.BusyRefusesCommand : Prop :=
  ∀ (s : State) (v : Word) (i : Instr), decode v = .command i → i ≠ .nop → s.busy = true →
    ∃ t, regWrite 0x00#5 v s = .next t ∧ ErrorRecorded .cmdWhileBusy v s t ∧
      engineTurn t = { engineTurn s with err := t.err, cause := t.cause, errCmd := t.errCmd }

/-- R250, R251: whatever the step, ERR rises only at a HOST write to CMD, with the code and the word of the
one condition that holds: an illegal word, a command other than NOP while BUSY = 1, or COMBINE with a lane
of OP0 above 3. No engine step raises it. -/
def Obligations.ErrorSources : Prop :=
  ∀ s t : State, step s = .next t → s.err = false → t.err = true →
    ∃ v rest, s.inputs = .write 0x00#5 v :: rest ∧ t.errCmd = v ∧
      ((t.cause.code = 1#4 ∧ IllegalWord v) ∨
       (t.cause.code = 2#4 ∧ s.busy = true ∧ ∃ i, i ≠ Instr.nop ∧ v = encode i) ∨
       (t.cause.code = 3#4 ∧ s.busy = false ∧ v = 0x00000003#32 ∧
         s.op0 &&& 0xFCFCFCFC#32 ≠ 0#32))

/-- R252: which word can raise what: NOP nothing, every other command CMD_WHILE_BUSY exactly while
BUSY = 1, COMBINE alone OPERAND_RANGE, and a word that is no command ILLEGAL_CMD always. -/
def Obligations.WhichCommandRaises : Prop :=
  (∀ (i : Instr) (s t : State), s.err = false → exec i s = .next t →
    (t.err = true ↔ (i ≠ .nop ∧ s.busy = true) ∨
      (i = .combine ∧ s.busy = false ∧ s.op0 &&& 0xFCFCFCFC#32 ≠ 0#32)) ∧
    (t.err = true → s.busy = true → t.cause.code = 2#4) ∧
    (t.err = true → s.busy = false → i = .combine ∧ t.cause.code = 3#4)) ∧
  (∀ (v : Word) (s t : State), s.err = false → (∀ i, decode v ≠ .command i) →
    regWrite 0x00#5 v s = .next t → t.err = true ∧ t.cause.code = 1#4)

/-- R254: ILLEGAL_CMD before CMD_WHILE_BUSY before OPERAND_RANGE; and a host access followed by the engine
step of the same clock: a 1 written to STATUS.DONE when the engine finishes leaves DONE = 1, and a CMD
write there still sees BUSY = 1. -/
def Obligations.ErrorPriority : Prop :=
  ∀ s : State, s.busy = true → s.err = false →
    (∀ v, IllegalWord v → ∃ t, regWrite 0x00#5 v s = .next t ∧ t.cause = .illegalCmd ∧ t.errCmd = v) ∧
    (∃ t, regWrite 0x00#5 0x00000003#32 s = .next t ∧ t.cause = .cmdWhileBusy) ∧
    (∀ (n : RegNum) (v : Word) (rest : List Move), s.inputs = .write n v :: .engine :: rest →
      s.rst = false → s.curI.toNat + 1 = s.dataW.toNat → s.curJ.toNat + 1 = s.dataH.toNat →
      ∃ t u, step s = .next t ∧ step t = .next u ∧ u.busy = false ∧ u.done = true ∧
        (∀ i, n = 0x00#5 → v = encode i → i ≠ .nop → u.err = true ∧ u.cause = .cmdWhileBusy))

/-- R253: raising writes CAUSE, ERR_CMD and ERR if ERR = 0 and nothing if ERR = 1 (first error wins); the
command is dropped, and `irq` rises if ERR_IE = 1. Stated for each of the three causes. -/
def Obligations.FirstErrorWins : Prop :=
  ∀ (s t : State) (v : Word) (c : Cause), regWrite 0x00#5 v s = .next t →
    (c = .illegalCmd ∧ IllegalWord v) ∨
    (c = .cmdWhileBusy ∧ s.busy = true ∧ ∃ i, i ≠ Instr.nop ∧ v = encode i) ∨
    (c = .operandRange ∧ s.busy = false ∧ v = 0x00000003#32 ∧ s.op0 &&& 0xFCFCFCFC#32 ≠ 0#32) →
    ErrorRecorded c v s t ∧ t.err = true ∧ (s.errIe = true → irq t = true)

/-- R255: a write of 4 to STATUS clears ERR and CAUSE and leaves ERR_CMD, and the next error is recorded
afresh; while ERR = 1 a refused word changes nothing; and ERR blocks nothing: a command does with ERR = 1 what it does with ERR = 0, up to the
record. -/
def Obligations.ErrorClearAndNesting : Prop :=
  (∀ s : State, regWrite 0x01#5 0x00000004#32 s = .next { s with err := false, cause := .none } ∧
    ∀ v, IllegalWord v → regWrite 0x00#5 v { s with err := false, cause := .none } =
      .next { s with err := true, cause := .illegalCmd, errCmd := v }) ∧
  (∀ (s : State) (v : Word), s.err = true →
    IllegalWord v ∨ (s.busy = true ∧ ∃ i, v = encode i) → regWrite 0x00#5 v s = .next s) ∧
  (∀ (i : Instr) (s t : State) (c : Cause) (w : Word), s.err = false → exec i s = .next t →
    exec i { s with err := true, cause := c, errCmd := w } =
      .next { t with err := true, cause := c, errCmd := w })

/-- R37, R256: `irq` is high exactly when a pending bit and its enable are; clearing the flags or the
enables lowers it; setting an enable raises it at once for a pending bit. -/
def Obligations.InterruptLine : Prop :=
  ∀ s : State,
    (irq s = true ↔ (s.done = true ∧ s.doneIe = true) ∨ (s.err = true ∧ s.errIe = true)) ∧
    (∃ t, regWrite 0x01#5 0x00000006#32 s = .next t ∧ irq t = false ∧ t.doneIe = s.doneIe ∧
      t.errIe = s.errIe) ∧
    (∃ t, regWrite 0x02#5 0x00000000#32 s = .next t ∧ irq t = false ∧ t.done = s.done ∧ t.err = s.err) ∧
    (∃ t, regWrite 0x02#5 0x00000003#32 s = .next t ∧ (irq t = true ↔ s.done = true ∨ s.err = true))

/-! ### The register file (10_state.md) -/

/-- R24: a read answers the contents of R23's table and changes no state of the block (the answer stands in
the model's own `rdData`, log entry 8). -/
def Obligations.RegisterReads : Prop :=
  (∀ (s : State) (n : RegNum) (rest : List Move), s.inputs = .read n :: rest →
    step s = .next { s with inputs := rest, rdData := regRead n s }) ∧
  ∀ s : State,
    regRead 0x00#5 s = 0#32 ∧
    regRead 0x01#5 s = 0#24 ++ s.cause.code ++
      (if s.mode = .decode then 1#1 else 0#1) ++ (if s.err then 1#1 else 0#1) ++
      (if s.done then 1#1 else 0#1) ++ (if s.busy then 1#1 else 0#1) ∧
    regRead 0x02#5 s = 0#30 ++ (if s.errIe then 1#1 else 0#1) ++ (if s.doneIe then 1#1 else 0#1) ∧
    regRead 0x03#5 s = 0#16 ++ s.aW ∧ regRead 0x04#5 s = 0#16 ++ s.aH ∧
    regRead 0x05#5 s = 0#16 ++ s.bW ∧ regRead 0x06#5 s = 0#16 ++ s.bH ∧
    regRead 0x07#5 s = 0#15 ++ s.oW ∧ regRead 0x08#5 s = 0#15 ++ s.oH ∧
    regRead 0x09#5 s = 0#16 ++ s.dataW ∧ regRead 0x0A#5 s = 0#16 ++ s.dataH ∧
    regRead 0x0B#5 s = 0#16 ++ s.curI ∧ regRead 0x0C#5 s = 0#16 ++ s.curJ ∧
    regRead 0x0D#5 s = s.errCmd ∧
    regRead 0x10#5 s = s.op0 ∧ regRead 0x11#5 s = s.op1 ∧ regRead 0x12#5 s = s.op2 ∧
    regRead 0x13#5 s = s.op3 ∧ regRead 0x14#5 s = s.res0 ∧ regRead 0x15#5 s = s.res1 ∧
    regRead 0x16#5 s = s.res2 ∧ regRead 0x17#5 s = s.res3

/-- R25, R28, R29, R30: what a write to each register does, whatever BUSY is: the host-writable ones take the
value, CMD issues a command, every other number has no effect; a write to an input dimension while a grid
command runs does not affect that command. -/
def Obligations.RegisterWrites : Prop :=
  (∀ (s : State) (n : RegNum) (v : Word), 0x07 ≤ n.toNat → ¬ (0x10 ≤ n.toNat ∧ n.toNat ≤ 0x13) →
    regWrite n v s = .next s) ∧
  (∀ (s : State) (v : Word),
    regWrite 0x01#5 v s = .next { s with
      done := s.done && !v.getLsbD 1, err := s.err && !v.getLsbD 2,
      cause := if v.getLsbD 2 then .none else s.cause } ∧
    regWrite 0x02#5 v s = .next { s with doneIe := v.getLsbD 0, errIe := v.getLsbD 1 } ∧
    regWrite 0x03#5 v s = .next { s with aW := v.extractLsb' 0 16 } ∧
    regWrite 0x04#5 v s = .next { s with aH := v.extractLsb' 0 16 } ∧
    regWrite 0x05#5 v s = .next { s with bW := v.extractLsb' 0 16 } ∧
    regWrite 0x06#5 v s = .next { s with bH := v.extractLsb' 0 16 } ∧
    regWrite 0x10#5 v s = .next { s with op0 := v } ∧
    regWrite 0x11#5 v s = .next { s with op1 := v } ∧
    regWrite 0x12#5 v s = .next { s with op2 := v } ∧
    regWrite 0x13#5 v s = .next { s with op3 := v } ∧
    regWrite 0x00#5 v s = issueCommand v s) ∧
  ∀ (s : State) (aW aH bW bH : Dim),
    engineTurn { s with aW := aW, aH := aH, bW := bW, bH := bH } =
      { engineTurn s with aW := aW, aH := aH, bW := bW, bH := bH }

/-- R35: a reserved number reads 0 and ignores writes; a read-only register ignores writes; neither
records an error. -/
def Obligations.ReservedNumbersIgnored : Prop :=
  ∀ (s : State) (n : RegNum) (v : Word),
    (n = 0x0E#5 ∨ n = 0x0F#5 ∨ 0x18 ≤ n.toNat → regRead n s = 0#32 ∧ regWrite n v s = .next s) ∧
    ((0x07 ≤ n.toNat ∧ n.toNat ≤ 0x0D) ∨ (0x14 ≤ n.toNat ∧ n.toNat ≤ 0x17) → regWrite n v s = .next s)

/-- R26, R34, R22: only a write to CMD can write a RES register, the latched registers, the scan position,
the flags BUSY and MODE or ERR_CMD; a host write never changes a pixel; and no command writes an OP
register. -/
def Obligations.HostWriteFrame : Prop :=
  ∀ (s t : State) (n : RegNum) (v : Word), hostWrite n v s = .next t →
    PixelsSame s t ∧ OutsideSame s t ∧
    (n ≠ 0x00#5 → ResSame s t ∧ LatchSame s t ∧ CurSame s t ∧ t.busy = s.busy ∧ t.errCmd = s.errCmd) ∧
    (n = 0x00#5 → OpSame s t ∧ InDimsSame s t ∧ CtrlSame s t) ∧
    (s.busy = true → t.busy = true ∧ LatchSame s t ∧ CurSame s t ∧ ResSame s t)

/-- The pseudo-instruction WAIT of R99, one poll a step (log entry 4): it reads STATUS, is over once BUSY
reads 0, and otherwise comes again after the engine's next turn. -/
def Obligations.WaitPollsStatus : Prop :=
  ∀ (s : State) (rest : List Move), s.inputs = .wait :: rest →
    (s.busy = false → step s = .next { s with inputs := rest, rdData := regRead 0x01#5 s }) ∧
    (s.busy = true → step s = .next { s with
      inputs := .engine :: .wait :: rest, rdData := regRead 0x01#5 s })

/-! ### The engine (46_host_commands.md R236, 20_memory.md) -/

/-- R236: the engine has a step exactly when BUSY = 1; the step advances the scan in raster order or, at
the last coordinate, ends the command with the scan position kept; it changes no other register. -/
def Obligations.EngineAdvance : Prop :=
  ∀ s : State,
    (s.busy = false → engineTurn s = s) ∧
    (s.busy = true →
      (s.curI.toNat + 1 < s.dataW.toNat →
        engineTurn s = { s with curI := s.curI + 1#16, go := (engineTurn s).go }) ∧
      (¬ s.curI.toNat + 1 < s.dataW.toNat → s.curJ.toNat + 1 < s.dataH.toNat →
        engineTurn s = { s with curI := 0#16, curJ := s.curJ + 1#16, go := (engineTurn s).go }) ∧
      (¬ s.curI.toNat + 1 < s.dataW.toNat → ¬ s.curJ.toNat + 1 < s.dataH.toNat →
        engineTurn s = { s with busy := false, done := true, go := (engineTurn s).go }))

/-- R174, R179: an ENCODE step puts block pixel k of the carrier and secret pixels at the scan position at
the output coordinate of block index k, and leaves every other pixel of all three spaces; it raises nothing
and writes no register but the scan position, BUSY and DONE. -/
def Obligations.EncodeStepWritesBlock : Prop :=
  ∀ s : State, s.busy = true → s.mode = .encode →
    let i := s.curI.toNat
    let j := s.curJ.toNat
    let b := encBlock (s.pixel .ga i j) (s.pixel .gb i j)
    let t := engineTurn s
    t.pixel .go (2 * i) (2 * j) = b.e0 ∧ t.pixel .go (2 * i + 1) (2 * j) = b.e1 ∧
    t.pixel .go (2 * i) (2 * j + 1) = b.e2 ∧ t.pixel .go (2 * i + 1) (2 * j + 1) = b.e3 ∧
    (∀ x y, ¬ (x / 2 = i ∧ y / 2 = j) → t.pixel .go x y = s.pixel .go x y) ∧
    (∀ x y, t.pixel .ga x y = s.pixel .ga x y ∧ t.pixel .gb x y = s.pixel .gb x y) ∧
    t = { s with go := t.go, curI := t.curI, curJ := t.curJ, busy := t.busy, done := t.done }

/-- R204: a DECODE step puts the pixel recovered from the block at twice the scan position at the scan
position of GO, and leaves every other pixel of all three spaces; it raises nothing and writes no register
but the scan position, BUSY and DONE. -/
def Obligations.DecodeStepWritesPixel : Prop :=
  ∀ s : State, s.busy = true → s.mode = .decode →
    let i := s.curI.toNat
    let j := s.curJ.toNat
    let t := engineTurn s
    t.pixel .go i j = decBlock ⟨s.pixel .ga (2 * i) (2 * j), s.pixel .ga (2 * i + 1) (2 * j),
      s.pixel .ga (2 * i) (2 * j + 1), s.pixel .ga (2 * i + 1) (2 * j + 1)⟩ ∧
    (∀ x y, ¬ (x = i ∧ y = j) → t.pixel .go x y = s.pixel .go x y) ∧
    (∀ x y, t.pixel .ga x y = s.pixel .ga x y ∧ t.pixel .gb x y = s.pixel .gb x y) ∧
    t = { s with go := t.go, curI := t.curI, curJ := t.curJ, busy := t.busy, done := t.done }

/-- R64, R178, R206: an engine step does not depend on a pixel outside the region it may read: the data
region of GA and GB for ENCODE, twice the data region of GA, and nothing of GB, for DECODE. -/
def Obligations.EngineReadsOnlyItsRegion : Prop :=
  ∀ (s : State) (ga gb : Grid), s.Inv → s.busy = true →
    let s' : State := { s with ga := ga, gb := gb }
    (s.mode = .encode → ∀ x y, x < s.dataW.toNat → y < s.dataH.toNat →
      s'.pixel .ga x y = s.pixel .ga x y ∧ s'.pixel .gb x y = s.pixel .gb x y) →
    (s.mode = .decode → ∀ x y, x < 2 * s.dataW.toNat → y < 2 * s.dataH.toNat →
      s'.pixel .ga x y = s.pixel .ga x y) →
    engineTurn s' = { engineTurn s with ga := ga, gb := gb }

/-- R68: no step but a platform write changes a pixel of GA or GB, and the engine does not read GO: nothing
but GO itself depends on what GO held. -/
def Obligations.InputsReadOnlyOutputWriteOnly : Prop :=
  (∀ (s t : State), step s = .next t →
    (∀ m rest, s.inputs = m :: rest → m.isPlatformWrite = false) →
    ∀ x y, t.pixel .ga x y = s.pixel .ga x y ∧ t.pixel .gb x y = s.pixel .gb x y) ∧
  (∀ (s : State) (g : Grid),
    engineTurn { s with go := g } = { engineTurn s with go := (engineTurn { s with go := g }).go } ∧
    engineWrites { s with go := g } = engineWrites s)

/-- R77: no step but a platform write changes a pixel of GO outside the output rectangle
`[0, O_W) × [0, O_H)`. -/
def Obligations.OutputRectangleOnly : Prop :=
  ∀ s t : State, s.Inv → step s = .next t →
    (∀ m rest, s.inputs = m :: rest → m.isPlatformWrite = false) →
    ∀ x y, s.oW.toNat ≤ x ∨ s.oH.toNat ≤ y → t.pixel .go x y = s.pixel .go x y

/-- 20_memory.md section 1, R238: a platform write while BUSY = 0 stores exactly its pixel and changes
nothing else; a `GETPIX` reads one pixel at any time and changes nothing of the block. -/
def Obligations.PlatformAccesses : Prop :=
  (∀ (s : State) (sp : GridSpace) (x y : ODim) (p : Pixel) (m : Move) (rest : List Move),
    s.inputs = m :: rest → s.busy = false →
    (m = .setGO x y p ∧ sp = .go) ∨
    (m = .setGA (x.setWidth 16) (y.setWidth 16) p ∧ sp = .ga ∧ x.toNat < 2 ^ 16 ∧ y.toNat < 2 ^ 16) ∨
    (m = .setGB (x.setWidth 16) (y.setWidth 16) p ∧ sp = .gb ∧ x.toNat < 2 ^ 16 ∧ y.toNat < 2 ^ 16) →
    ∃ t, step s = .next t ∧ t = { s with inputs := rest, ga := t.ga, gb := t.gb, go := t.go } ∧
      ∀ sp' u v, t.pixel sp' u v =
        if sp' = sp ∧ u = x.toNat ∧ v = y.toNat then p else s.pixel sp' u v) ∧
  (∀ (s : State) (x y : ODim) (rest : List Move), s.inputs = .getGO x y :: rest →
    step s = .next { s with inputs := rest, gpData := s.pixel .go x.toNat y.toNat })

/-- The canonical form (log entry 2): canonical stores with the same pixels written are the same data. -/
def Obligations.CanonicalStoresEqual : Prop :=
  ∀ (lim : Nat) (g h : Grid), g.wf lim = true → h.wf lim = true →
    (∀ x y, g.find x y = h.find x y) → g = h

/-! ### Reset (70_reset_and_hazards.md) -/

/-- R41: right after reset every register reads 0, `irq` is 0 and the engine has no step; and taking reset
from an idle state leaves the grid stores as they are and gives exactly those register values. -/
def Obligations.ResetValues : Prop :=
  (∀ n : RegNum, regRead n State.reset = 0#32) ∧ irq State.reset = false ∧
  engineTurn State.reset = State.reset ∧
  ∀ (s : State) (n : RegNum), s.busy = false →
    let t := assertReset 0 s
    regRead n t = 0#32 ∧ irq t = false ∧ engineTurn t = t ∧ t.ga = s.ga ∧ t.gb = s.gb ∧ t.go = s.go

/-- R290, R292: reset takes every register and flag to its reset value from any state and leaves GA and
GB; GO keeps every pixel but those the engine step cut short had already written: each is either the old
pixel or the one that step writes there, and with nothing landed GO is unchanged (how many writes landed is
the move's argument, log entry 7). While `rst` is held (log entry 6) a host write is ignored, reads answer
the reset values and the engine has no step. -/
def Obligations.ResetAction : Prop :=
  ∀ (s : State) (landed : Nat) (rest : List Move), s.inputs = .assertReset landed :: rest →
    ∃ t, step s = .next t ∧
      t = { State.reset with
        ga := s.ga, gb := s.gb, go := t.go, rst := true, inputs := rest, rdData := s.rdData,
        gpData := s.gpData } ∧
      irq t = false ∧ engineTurn t = t ∧
      (∀ x y, t.pixel .go x y = s.pixel .go x y ∨
        (s.busy = true ∧ t.pixel .go x y = (engineTurn s).pixel .go x y)) ∧
      (landed = 0 ∨ s.busy = false → t.go = s.go) ∧
      (∀ n v, hostWrite n v t = .next t ∧ regRead n t = 0#32)

/-! ### The invariant, and the results of whole grid commands -/

/-- The reset state meets the invariant. -/
def Obligations.ResetMeetsInvariant : Prop := State.reset.Inv

/-- Every step keeps the invariant: the stores stay canonical, the scan position stays a data coordinate
while BUSY = 1 (R33, R236) and rests on the last one, BUSY and DONE are never both 1, CAUSE is 0 exactly
when ERR = 0 (R27), ERR_CMD fits CAUSE, O_W and O_H fit the data region, and `rst` holds the registers. -/
def Obligations.StepKeepsInvariant : Prop :=
  ∀ s t : State, s.Inv → step s = .next t → t.Inv

/-- R70 (c), R173, R174: progress of ENCODE under every interleaving. The acceptance of a non-empty ENCODE
starts it; every step of any agent but a reset keeps it while BUSY = 1: each coordinate of GO holds its
final pixel if the engine has passed its block and its old pixel otherwise; and when BUSY falls, DONE is 1. -/
def Obligations.EncodeProgressKept : Prop :=
  (∀ s t : State, s.busy = false → exec .encode s = .next t → EncodeProgress s t) ∧
  (∀ a s t : State, s.Inv → s.busy = true → EncodeProgress a s → step s = .next t →
    (∀ m rest, s.inputs = m :: rest → m.isReset = false) →
    EncodeProgress a t ∧ (t.busy = false → t.done = true))

/-- R70 (c), R203, R204: the same for DECODE. -/
def Obligations.DecodeProgressKept : Prop :=
  (∀ s t : State, s.busy = false → exec .decode s = .next t → DecodeProgress s t) ∧
  (∀ a s t : State, s.Inv → s.busy = true → DecodeProgress a s → step s = .next t →
    (∀ m rest, s.inputs = m :: rest → m.isReset = false) →
    DecodeProgress a t ∧ (t.busy = false → t.done = true))

/-- R175, R237: an ENCODE accepted with no other move pending ends after exactly DATA_W * DATA_H engine
steps, with the whole encoded grid in GO, the inputs unchanged, and the scan at the last coordinate. That
the engine moves when the list of moves is empty is the model's choice (log entry 3); under any other
interleaving EncodeProgressKept says the same of the end. -/
def Obligations.EncodeRunCompletes : Prop :=
  ∀ s : State, s.busy = false → s.inputs = [] →
    let dw := min s.aW.toNat s.bW.toNat
    let dh := min s.aH.toNat s.bH.toNat
    ∃ t u, exec .encode s = .next t ∧ Host.Core.run Sys2Proof.core (dw * dh) t = .next u ∧
      (∀ n, n < dw * dh → ∃ w, Host.Core.run Sys2Proof.core n t = .next w ∧ w.busy = true ∧ w.done = false) ∧
      u.busy = false ∧ u.done = true ∧
      u.oW.toNat = 2 * dw ∧ u.oH.toNat = 2 * dh ∧ u.ga = s.ga ∧ u.gb = s.gb ∧
      (0 < dw ∧ 0 < dh → u.curI.toNat + 1 = dw ∧ u.curJ.toNat + 1 = dh) ∧
      (dw = 0 ∨ dh = 0 → u.curI = 0#16 ∧ u.curJ = 0#16) ∧
      (∀ i j k, i < dw → j < dh → k < 4 → u.pixel .go (2 * i + k % 2) (2 * j + k / 2) =
        (encBlock (s.pixel .ga i j) (s.pixel .gb i j)).get k) ∧
      (∀ x y, 2 * dw ≤ x ∨ 2 * dh ≤ y → u.pixel .go x y = s.pixel .go x y)

/-- R205, R206, R237: the same for DECODE: half the dimensions, rounded down. That the engine moves when the
list of moves is empty is the model's choice (log entry 3); under any other interleaving DecodeProgressKept
says the same of the end. -/
def Obligations.DecodeRunCompletes : Prop :=
  ∀ s : State, s.busy = false → s.inputs = [] →
    let dw := s.aW.toNat / 2
    let dh := s.aH.toNat / 2
    ∃ t u, exec .decode s = .next t ∧ Host.Core.run Sys2Proof.core (dw * dh) t = .next u ∧
      (∀ n, n < dw * dh → ∃ w, Host.Core.run Sys2Proof.core n t = .next w ∧ w.busy = true ∧ w.done = false) ∧
      u.busy = false ∧ u.done = true ∧
      u.oW.toNat = dw ∧ u.oH.toNat = dh ∧ u.ga = s.ga ∧ u.gb = s.gb ∧
      (0 < dw ∧ 0 < dh → u.curI.toNat + 1 = dw ∧ u.curJ.toNat + 1 = dh) ∧
      (dw = 0 ∨ dh = 0 → u.curI = 0#16 ∧ u.curJ = 0#16) ∧
      (∀ i j, i < dw → j < dh → u.pixel .go i j =
        decBlock ⟨s.pixel .ga (2 * i) (2 * j), s.pixel .ga (2 * i + 1) (2 * j),
          s.pixel .ga (2 * i) (2 * j + 1), s.pixel .ga (2 * i + 1) (2 * j + 1)⟩) ∧
      (∀ x y, dw ≤ x ∨ dh ≤ y → u.pixel .go x y = s.pixel .go x y)

/-- R207: the round trip. Encode; carry the output rectangle from GO to GA bit-exactly and set A_W, A_H to
the O_W, O_H of the ENCODE; decode: GO then holds the secret on the overlap. Per block too. An overlap over
32767 on an axis has an O_W or O_H that no 16-bit A_W or A_H can hold, so the statement allows any A_W, A_H
up to O_W, O_H: DECODE of that part of the rectangle recovers the secret on half of it, rounded down, which
is the whole overlap when they are equal. That the engine moves when the list of moves is empty is the
model's choice (log entry 3). -/
def Obligations.GridRoundTrip : Prop :=
  (∀ p q : Pixel, decBlock (encBlock p q) = q) ∧
  ∀ s t u d : State, s.busy = false → s.inputs = [] → exec .encode s = .next t →
    Host.Core.run Sys2Proof.core (min s.aW.toNat s.bW.toNat * min s.aH.toNat s.bH.toNat) t = .next u →
    d.busy = false → d.inputs = [] → d.aW.toNat ≤ u.oW.toNat → d.aH.toNat ≤ u.oH.toNat →
    (∀ x y, x < d.aW.toNat → y < d.aH.toNat → d.pixel .ga x y = u.pixel .go x y) →
    let dw := d.aW.toNat / 2
    let dh := d.aH.toNat / 2
    (∃ e f, exec .decode d = .next e ∧
      Host.Core.run Sys2Proof.core (dw * dh) e = .next f ∧
      f.busy = false ∧ f.done = true ∧ f.oW.toNat = dw ∧ f.oH.toNat = dh ∧
      ∀ i j, i < dw → j < dh → f.pixel .go i j = s.pixel .gb i j) ∧
    (d.aW.toNat = u.oW.toNat → dw = min s.aW.toNat s.bW.toNat) ∧
    (d.aH.toNat = u.oH.toNat → dh = min s.aH.toNat s.bH.toNat)

/-- R180: order independence. The block writes of a set of data coordinates leave the same GO in every
order of visiting them. -/
def Obligations.EncodeOrderIndependent : Prop :=
  ∀ (s : State) (cs ds : List (Nat × Nat)) (g : Grid) (x y : Nat), cs.Nodup → cs.Perm ds →
    (Grid.putAll (cs.flatMap fun c => encodeWrites c.1 c.2 s) g).find x y =
      (Grid.putAll (ds.flatMap fun c => encodeWrites c.1 c.2 s) g).find x y

/-- R181: in the encoded block the top six bits of every channel are the carrier's (so all four pixels
agree there and differ from the carrier pixel by at most 3 per channel), and the low two are the secret's
group of the block index. -/
def Obligations.EncodedBlockLooksLikeCarrier : Prop :=
  ∀ (p q : Pixel) (c k : Nat), c < 3 → k < 4 →
    (chan c ((encBlock p q).get k)).extractLsb' 2 6 = (chan c p).extractLsb' 2 6 ∧
    (chan c ((encBlock p q).get k)).extractLsb' 0 2 = (split (chan c q)).get k ∧
    |((chan c ((encBlock p q).get k)).toNat : Int) - (chan c p).toNat| ≤ 3
end

