-- ==== Sys2Proof/Laws/State.lean ====
section
/-! SUPPORT. Laws of State. The lemma of each field under each named update is made by `@[simps]` at the
update itself in Machine/Ops.lean (`State.setRes0_op0`, …, each true by rfl and a simp lemma); here stand
the fields of the reset state, and what each update does to the pixels a grid space answers. -/

namespace Sys2Proof.Machine

/-! ### The reset state (10_state.md R41) -/

@[simp] theorem reset_op0 : State.reset.op0 = 0#32 := rfl
@[simp] theorem reset_op1 : State.reset.op1 = 0#32 := rfl
@[simp] theorem reset_op2 : State.reset.op2 = 0#32 := rfl
@[simp] theorem reset_op3 : State.reset.op3 = 0#32 := rfl
@[simp] theorem reset_res0 : State.reset.res0 = 0#32 := rfl
@[simp] theorem reset_res1 : State.reset.res1 = 0#32 := rfl
@[simp] theorem reset_res2 : State.reset.res2 = 0#32 := rfl
@[simp] theorem reset_res3 : State.reset.res3 = 0#32 := rfl
@[simp] theorem reset_busy : State.reset.busy = false := rfl
@[simp] theorem reset_done : State.reset.done = false := rfl
@[simp] theorem reset_err : State.reset.err = false := rfl
@[simp] theorem reset_mode : State.reset.mode = .encode := rfl
@[simp] theorem reset_cause : State.reset.cause = .none := rfl
@[simp] theorem reset_doneIe : State.reset.doneIe = false := rfl
@[simp] theorem reset_errIe : State.reset.errIe = false := rfl
@[simp] theorem reset_aW : State.reset.aW = 0#16 := rfl
@[simp] theorem reset_aH : State.reset.aH = 0#16 := rfl
@[simp] theorem reset_bW : State.reset.bW = 0#16 := rfl
@[simp] theorem reset_bH : State.reset.bH = 0#16 := rfl
@[simp] theorem reset_oW : State.reset.oW = 0#17 := rfl
@[simp] theorem reset_oH : State.reset.oH = 0#17 := rfl
@[simp] theorem reset_dataW : State.reset.dataW = 0#16 := rfl
@[simp] theorem reset_dataH : State.reset.dataH = 0#16 := rfl
@[simp] theorem reset_curI : State.reset.curI = 0#16 := rfl
@[simp] theorem reset_curJ : State.reset.curJ = 0#16 := rfl
@[simp] theorem reset_errCmd : State.reset.errCmd = 0#32 := rfl

/-! ### Pixels: a register update leaves every grid space alone -/

variable (sp : GridSpace) (x y : Nat) (s : State)

/-- Two states with the same three stores answer the same pixels. -/
theorem pixel_congr {s t : State} (ha : t.ga = s.ga) (hb : t.gb = s.gb) (ho : t.go = s.go) :
    t.pixel sp x y = s.pixel sp x y := by
  cases sp <;> simp [State.pixel, State.grid, ha, hb, ho]

@[simp] theorem pixel_setRes0 (v : Word) : (s.setRes0 v).pixel sp x y = s.pixel sp x y := by cases sp <;> rfl
@[simp] theorem pixel_setRes (q : Quad Word) : (s.setRes q).pixel sp x y = s.pixel sp x y := by cases sp <;> rfl
@[simp] theorem pixel_setOp0 (v : Word) : (s.setOp0 v).pixel sp x y = s.pixel sp x y := by cases sp <;> rfl
@[simp] theorem pixel_setOp1 (v : Word) : (s.setOp1 v).pixel sp x y = s.pixel sp x y := by cases sp <;> rfl
@[simp] theorem pixel_setOp2 (v : Word) : (s.setOp2 v).pixel sp x y = s.pixel sp x y := by cases sp <;> rfl
@[simp] theorem pixel_setOp3 (v : Word) : (s.setOp3 v).pixel sp x y = s.pixel sp x y := by cases sp <;> rfl
@[simp] theorem pixel_setAW (d : Dim) : (s.setAW d).pixel sp x y = s.pixel sp x y := by cases sp <;> rfl
@[simp] theorem pixel_setAH (d : Dim) : (s.setAH d).pixel sp x y = s.pixel sp x y := by cases sp <;> rfl
@[simp] theorem pixel_setBW (d : Dim) : (s.setBW d).pixel sp x y = s.pixel sp x y := by cases sp <;> rfl
@[simp] theorem pixel_setBH (d : Dim) : (s.setBH d).pixel sp x y = s.pixel sp x y := by cases sp <;> rfl
@[simp] theorem pixel_setCtrl (a b : Bool) : (s.setCtrl a b).pixel sp x y = s.pixel sp x y := by cases sp <;> rfl
@[simp] theorem pixel_clearDone : s.clearDone.pixel sp x y = s.pixel sp x y := by cases sp <;> rfl
@[simp] theorem pixel_clearErr : s.clearErr.pixel sp x y = s.pixel sp x y := by cases sp <;> rfl
@[simp] theorem pixel_record (c : Cause) (v : Word) : (s.record c v).pixel sp x y = s.pixel sp x y := by cases sp <;> rfl
@[simp] theorem pixel_latch (m : Mode) (dw dh : Dim) (ow oh : ODim) :
    (s.latch m dw dh ow oh).pixel sp x y = s.pixel sp x y := by cases sp <;> rfl
@[simp] theorem pixel_setDone : s.setDone.pixel sp x y = s.pixel sp x y := by cases sp <;> rfl
@[simp] theorem pixel_start : s.start.pixel sp x y = s.pixel sp x y := by cases sp <;> rfl
@[simp] theorem pixel_finish : s.finish.pixel sp x y = s.pixel sp x y := by cases sp <;> rfl
@[simp] theorem pixel_setCur (i j : Dim) : (s.setCur i j).pixel sp x y = s.pixel sp x y := by cases sp <;> rfl
@[simp] theorem pixel_setRst (b : Bool) : (s.setRst b).pixel sp x y = s.pixel sp x y := by cases sp <;> rfl
@[simp] theorem pixel_setInputs (ms : List Move) : (s.setInputs ms).pixel sp x y = s.pixel sp x y := by cases sp <;> rfl
@[simp] theorem pixel_setRd (v : Word) : (s.setRd v).pixel sp x y = s.pixel sp x y := by cases sp <;> rfl
@[simp] theorem pixel_setGp (p : Pixel) : (s.setGp p).pixel sp x y = s.pixel sp x y := by cases sp <;> rfl
@[simp] theorem pixel_clearRegs : s.clearRegs.pixel sp x y = s.pixel sp x y := by cases sp <;> rfl
@[simp] theorem pixel_setGo_ga (g : Grid) : (s.setGo g).pixel .ga x y = s.pixel .ga x y := rfl
@[simp] theorem pixel_setGo_gb (g : Grid) : (s.setGo g).pixel .gb x y = s.pixel .gb x y := rfl
@[simp] theorem pixel_setGa_gb (g : Grid) : (s.setGa g).pixel .gb x y = s.pixel .gb x y := rfl
@[simp] theorem pixel_setGa_go (g : Grid) : (s.setGa g).pixel .go x y = s.pixel .go x y := rfl
@[simp] theorem pixel_setGb_ga (g : Grid) : (s.setGb g).pixel .ga x y = s.pixel .ga x y := rfl
@[simp] theorem pixel_setGb_go (g : Grid) : (s.setGb g).pixel .go x y = s.pixel .go x y := rfl

end Sys2Proof.Machine
end

