-- ==== Sys2Proof/Laws/Functions.lean ====
section
/-! SUPPORT. The leaf functions as wiring (40 to 45, "in gates"), and lanes, channels and packing. -/

namespace Sys2Proof.Machine

/-! ### The codec -/

/-- `split` as wiring (R122): `g_k = value[7-2k : 6-2k]`. -/
theorem split_wiring (v : Byte) :
    split v = ⟨v.extractLsb' 6 2, v.extractLsb' 4 2, v.extractLsb' 2 2, v.extractLsb' 0 2⟩ := by
  decide +revert

/-- `truncate_low_bits` as wiring (R122). -/
theorem truncateLowBits_wiring (v : Byte) : truncateLowBits v = v.extractLsb' 2 6 ++ 0#2 := by
  decide +revert

/-- `combine` as wiring (R141). -/
theorem combine_wiring (g : Quad BitGroup) : combine g = g.e0 ++ g.e1 ++ g.e2 ++ g.e3 := by
  obtain ⟨a, b, c, d⟩ := g
  decide +revert

/-- The one addition of `merge` never carries (00_scope.md R10 (b)). -/
theorem base_add_group (v : Byte) (g : BitGroup) :
    truncateLowBits v + g.setWidth 8 = v.extractLsb' 2 6 ++ g := by
  revert g; decide +revert

/-- `merge` as wiring (R150): `out_k = {carrier[7:2], g_k}`. -/
theorem merge_wiring (c s : Byte) :
    merge c s = ⟨c.extractLsb' 2 6 ++ s.extractLsb' 6 2, c.extractLsb' 2 6 ++ s.extractLsb' 4 2,
      c.extractLsb' 2 6 ++ s.extractLsb' 2 2, c.extractLsb' 2 6 ++ s.extractLsb' 0 2⟩ := by
  simp only [merge, Quad.map, split_wiring, base_add_group]

theorem low_two (b : Byte) : (b &&& 0b11#8).setWidth 2 = b.extractLsb' 0 2 := by
  decide +revert

/-- `extract` as wiring (R161). -/
theorem extract_wiring (v : Quad Byte) :
    extract v = v.e0.extractLsb' 0 2 ++ v.e1.extractLsb' 0 2 ++ v.e2.extractLsb' 0 2 ++
      v.e3.extractLsb' 0 2 := by
  simp only [extract, combine_wiring, Quad.map, low_two]

/-! ### Packing (00_scope.md R9) -/

/-- The bits of `{b, g, r}`. -/
theorem getLsbD_pix (r g b : Byte) (i : Nat) :
    (pix r g b).getLsbD i =
      if i < 8 then r.getLsbD i else if i < 16 then g.getLsbD (i - 8) else b.getLsbD (i - 16) := by
  change BitVec.getLsbD (w := 8 + 8 + 8) (b ++ g ++ r) i = _
  simp only [BitVec.getLsbD_append]
  grind

/-- The bits of a channel. -/
theorem getLsbD_chan (c : Nat) (p : Pixel) (i : Nat) :
    (chan c p).getLsbD i = (decide (i < 8) && p.getLsbD (8 * c + i)) := by
  simp [chan, BitVec.getLsbD_extractLsb']

@[simp] theorem chan_pix_zero (r g b : Byte) : chan 0 (pix r g b) = r := by
  apply BitVec.eq_of_getLsbD_eq
  intro i hi
  simp only [getLsbD_chan, getLsbD_pix]
  grind

@[simp] theorem chan_pix_one (r g b : Byte) : chan 1 (pix r g b) = g := by
  apply BitVec.eq_of_getLsbD_eq
  intro i hi
  simp only [getLsbD_chan, getLsbD_pix]
  grind

@[simp] theorem chan_pix_two (r g b : Byte) : chan 2 (pix r g b) = b := by
  apply BitVec.eq_of_getLsbD_eq
  intro i hi
  simp only [getLsbD_chan, getLsbD_pix]
  grind

/-- A pixel is its three channels. -/
theorem pix_chan (p : Pixel) : pix (chan 0 p) (chan 1 p) (chan 2 p) = p := by
  apply BitVec.eq_of_getLsbD_eq
  intro i hi
  simp only [getLsbD_chan, getLsbD_pix]
  by_cases h8 : i < 8
  · simp [h8]
  · by_cases h16 : i < 16
    · have : 8 + (i - 8) = i := by omega
      have : i - 8 < 8 := by omega
      simp_all
    · have : 16 + (i - 16) = i := by omega
      have : i - 16 < 8 := by omega
      simp_all

/-- Two pixels with the same channels are equal. -/
theorem pixel_ext {p q : Pixel} (h0 : chan 0 p = chan 0 q) (h1 : chan 1 p = chan 1 q)
    (h2 : chan 2 p = chan 2 q) : p = q := by
  rw [← pix_chan p, ← pix_chan q, h0, h1, h2]

/-- The bits of `{b3, b2, b1, b0}`. -/
theorem getLsbD_pack4 (q : Quad Byte) (i : Nat) :
    (pack4 q).getLsbD i =
      if i < 8 then q.e0.getLsbD i else if i < 16 then q.e1.getLsbD (i - 8)
      else if i < 24 then q.e2.getLsbD (i - 16) else q.e3.getLsbD (i - 24) := by
  change BitVec.getLsbD (w := 8 + 8 + 8 + 8) (q.e3 ++ q.e2 ++ q.e1 ++ q.e0) i = _
  simp only [BitVec.getLsbD_append]
  grind

/-- The bits of a lane. -/
theorem getLsbD_lane (k : Nat) (w : Word) (i : Nat) :
    (lane k w).getLsbD i = (decide (i < 8) && w.getLsbD (8 * k + i)) := by
  simp [lane, BitVec.getLsbD_extractLsb']

/-- The lanes of a packed word are the bytes packed. -/
@[simp] theorem lanes_pack4 (q : Quad Byte) : lanes (pack4 q) = q := by
  obtain ⟨a, b, c, d⟩ := q
  simp only [lanes, Quad.mk.injEq]
  refine ⟨?_, ?_, ?_, ?_⟩ <;>
    (apply BitVec.eq_of_getLsbD_eq
     intro i hi
     simp only [getLsbD_lane, getLsbD_pack4]
     grind)

end Sys2Proof.Machine
end

