-- ==== Sys2Proof/Laws/Grid.lean ====
section
/-! SUPPORT. Laws of the grid stores: a read after a write, and the canonical form. -/

namespace Sys2Proof.Machine

@[simp] theorem Grid.find_nil (x y : Nat) : Grid.find x y [] = none := rfl

/-- A read after a write to the same coordinate gives the pixel written. -/
@[simp] theorem Grid.find_put_same (x y : Nat) (p : Pixel) (g : Grid) :
    Grid.find x y (Grid.put x y p g) = some p := by
  induction g with
  | nil => simp [Grid.put, Grid.find]
  | cons c rest ih =>
    unfold Grid.put
    split
    · simp [Grid.find]
    · split
      · simp [Grid.find]
      · rename_i h _
        simp [Grid.find, h, ih]

/-- A write leaves every other coordinate alone. -/
theorem Grid.find_put_other {x y u v : Nat} (p : Pixel) (g : Grid) (h : ¬ (x = u ∧ y = v)) :
    Grid.find u v (Grid.put x y p g) = Grid.find u v g := by
  induction g with
  | nil => simp [Grid.put, Grid.find, h]
  | cons c rest ih =>
    unfold Grid.put
    split
    · rename_i hc
      obtain ⟨rfl, rfl⟩ := hc
      simp [Grid.find, h]
    · split
      · simp [Grid.find, h]
      · simp [Grid.find, ih]

/-- A write, read back anywhere. -/
theorem Grid.find_put (x y u v : Nat) (p : Pixel) (g : Grid) :
    Grid.find u v (Grid.put x y p g) = if x = u ∧ y = v then some p else Grid.find u v g := by
  split
  · rename_i h
    obtain ⟨rfl, rfl⟩ := h
    simp
  · rename_i h
    exact Grid.find_put_other p g h

@[simp] theorem Grid.putAll_nil (g : Grid) : Grid.putAll [] g = g := rfl

@[simp] theorem Grid.putAll_cons (w : Cell) (ws : List Cell) (g : Grid) :
    Grid.putAll (w :: ws) g = Grid.putAll ws (Grid.put w.x w.y w.pix g) := rfl

theorem Grid.putAll_append (ws vs : List Cell) (g : Grid) :
    Grid.putAll (ws ++ vs) g = Grid.putAll vs (Grid.putAll ws g) := by
  induction ws generalizing g with
  | nil => rfl
  | cons w rest ih => simp [ih]

/-- Writes leave every coordinate alone that none of them names. -/
theorem Grid.find_putAll_other {u v : Nat} (ws : List Cell) (g : Grid)
    (h : ∀ w ∈ ws, ¬ (w.x = u ∧ w.y = v)) : Grid.find u v (Grid.putAll ws g) = Grid.find u v g := by
  induction ws generalizing g with
  | nil => rfl
  | cons w rest ih =>
    rw [Grid.putAll_cons, ih _ (fun w' hw' => h w' (List.mem_cons_of_mem _ hw')),
      Grid.find_put_other _ _ (h w List.mem_cons_self)]

/-- What the block answers for GO after the writes `ws`, where none of them names the coordinate. -/
theorem pixel_putAll_other {s : State} {u v : Nat} (ws : List Cell)
    (h : ∀ w ∈ ws, ¬ (w.x = u ∧ w.y = v)) :
    (s.setGo (Grid.putAll ws s.go)).pixel .go u v = s.pixel .go u v := by
  simp [State.pixel, State.grid, Grid.find_putAll_other ws s.go h]

/-- What the block answers for GO after one write. -/
theorem pixel_setGo_put (s : State) (g : Grid) (x y u v : Nat) (p : Pixel) :
    (s.setGo (Grid.put x y p g)).pixel .go u v =
      if x = u ∧ y = v then p else (s.setGo g).pixel .go u v := by
  by_cases h : x = u ∧ y = v <;> simp [State.pixel, State.grid, Grid.find_put, h]

/-! ### The canonical form -/

theorem Cell.before_iff (a b : Cell) : a.before b = true ↔ a.y < b.y ∨ (a.y = b.y ∧ a.x < b.x) := by
  simp [Cell.before]

theorem Grid.wf_cons (lim : Nat) (c : Cell) (rest : Grid) :
    Grid.wf lim (c :: rest) = true ↔
      c.x < lim ∧ c.y < lim ∧ (∀ d ∈ rest, c.before d = true) ∧ Grid.wf lim rest = true := by
  simp [Grid.wf, and_assoc]

/-- The cells of a store after a write are the old ones or the new one. -/
theorem Grid.mem_put {x y : Nat} {p : Pixel} {g : Grid} {d : Cell} (h : d ∈ Grid.put x y p g) :
    d = ⟨x, y, p⟩ ∨ d ∈ g := by
  induction g with
  | nil => simpa [Grid.put] using h
  | cons c rest ih =>
    unfold Grid.put at h
    split at h
    · rcases List.mem_cons.mp h with h | h
      · exact .inl h
      · exact .inr (List.mem_cons_of_mem _ h)
    · split at h
      · rcases List.mem_cons.mp h with h | h
        · exact .inl h
        · exact .inr h
      · rcases List.mem_cons.mp h with h | h
        · exact .inr (h ▸ List.mem_cons_self)
        · rcases ih h with h | h
          · exact .inl h
          · exact .inr (List.mem_cons_of_mem _ h)

/-- A write inside the coordinate range keeps the canonical form. -/
theorem Grid.wf_put {lim x y : Nat} {p : Pixel} {g : Grid} (hx : x < lim) (hy : y < lim)
    (h : g.wf lim = true) : (Grid.put x y p g).wf lim = true := by
  induction g with
  | nil => simp [Grid.put, Grid.wf, hx, hy]
  | cons c rest ih =>
    obtain ⟨hcx, hcy, hall, hrest⟩ := (Grid.wf_cons _ _ _).mp h
    unfold Grid.put
    split
    · rename_i hc
      obtain ⟨rfl, rfl⟩ := hc
      refine (Grid.wf_cons _ _ _).mpr ⟨hcx, hcy, fun d hd => ?_, hrest⟩
      have := hall d hd
      simpa [Cell.before] using this
    · split
      · rename_i hlt
        refine (Grid.wf_cons _ _ _).mpr ⟨hx, hy, fun d hd => ?_, h⟩
        rw [Cell.before_iff]
        rcases List.mem_cons.mp hd with rfl | hd
        · exact hlt
        · have := (Cell.before_iff _ _).mp (hall d hd)
          simp only at hlt ⊢
          omega
      · rename_i hne hlt
        refine (Grid.wf_cons _ _ _).mpr ⟨hcx, hcy, fun d hd => ?_, ih hrest⟩
        rcases Grid.mem_put hd with rfl | hd
        · rw [Cell.before_iff]
          simp only
          omega
        · exact hall d hd

/-- Writes inside the coordinate range keep the canonical form. -/
theorem Grid.wf_putAll {lim : Nat} (ws : List Cell) {g : Grid}
    (hw : ∀ w ∈ ws, w.x < lim ∧ w.y < lim) (h : g.wf lim = true) : (Grid.putAll ws g).wf lim = true := by
  induction ws generalizing g with
  | nil => exact h
  | cons w rest ih =>
    have hw0 := hw w List.mem_cons_self
    exact ih (fun w' hw' => hw w' (List.mem_cons_of_mem _ hw')) (Grid.wf_put hw0.1 hw0.2 h)

/-- In a canonical store nothing lies at a coordinate before its first cell. -/
theorem Grid.find_none_of_before {c : Cell} {g : Grid} (h : ∀ d ∈ g, c.before d = true) :
    Grid.find c.x c.y g = none := by
  induction g with
  | nil => rfl
  | cons d rest ih =>
    have hd := (Cell.before_iff _ _).mp (h d List.mem_cons_self)
    have hne : ¬ (d.x = c.x ∧ d.y = c.y) := by omega
    simp [Grid.find, hne, ih (fun e he => h e (List.mem_cons_of_mem _ he))]

/-- The reset state's stores are canonical. -/
theorem reset_grids_wf (lim : Nat) :
    State.reset.ga.wf lim = true ∧ State.reset.gb.wf lim = true ∧ State.reset.go.wf lim = true :=
  ⟨rfl, rfl, rfl⟩

end Sys2Proof.Machine
end

