-- ==== Sys2Proof/Laws/Ops.lean ====
section
/-! SUPPORT. One lemma for each shared operation that says everything it can do. -/

namespace Sys2Proof.Machine

/-! ### Recording an error -/

/-- With ERR = 0 the record is written. -/
theorem raise_first {s : State} (c : Cause) (v : Word) (h : s.err = false) : raise c v s = s.record c v := by
  simp [raise, h]

/-- With ERR = 1 nothing is written. -/
theorem raise_later {s : State} (c : Cause) (v : Word) (h : s.err = true) : raise c v s = s := by
  simp [raise, h]

/-- Everything `raise` can do. -/
theorem raise_cases (c : Cause) (v : Word) (s : State) :
    (s.err = false ∧ raise c v s = s.record c v) ∨ (s.err = true ∧ raise c v s = s) := by
  cases h : s.err <;> simp [raise, h]

/-- `raise` does what `ErrorRecorded` says. -/
theorem raise_recorded (c : Cause) (v : Word) (s : State) : ErrorRecorded c v s (raise c v s) :=
  ⟨fun h => raise_first c v h, fun h => raise_later c v h⟩

/-! ### Issuing a command -/

/-- With BUSY = 0 the command has its effect. -/
theorem issue_idle {s : State} (i : Instr) (f : State → State) (h : s.busy = false) :
    issue i f s = .next (f s) := by
  simp [issue, h]

/-- With BUSY = 1 the command is refused. -/
theorem issue_busy {s : State} (i : Instr) (f : State → State) (h : s.busy = true) :
    issue i f s = .next (raise .cmdWhileBusy (encode i) s) := by
  simp [issue, h]

/-! ### Decoding -/

/-- A word that passes both checks is the word of the command it decodes to. -/
theorem decodeOp_command {op : BitVec 4} {i : Instr} (h : decodeOp op = .command i) :
    (encode i).extractLsb' 0 4 = op ∧ (encode i).extractLsb' 4 28 = 0#28 := by
  cases i <;> decide +revert

/-! ### Grid commands -/

/-- An empty data region finishes at once. -/
theorem accept_empty {dw dh : Dim} (m : Mode) (ow oh : ODim) (s : State) (h : dw = 0#16 ∨ dh = 0#16) :
    accept m dw dh ow oh s = (s.latch m dw dh ow oh).setDone := by
  simp [accept, h]

/-- A data region with pixels gives the engine steps. -/
theorem accept_start {dw dh : Dim} (m : Mode) (ow oh : ODim) (s : State) (h : ¬ (dw = 0#16 ∨ dh = 0#16)) :
    accept m dw dh ow oh s = (s.latch m dw dh ow oh).start := by
  simp only [accept, h, if_false]

/-- Everything `advance` can do. -/
theorem advance_cases (s : State) :
    (s.curI.toNat + 1 < s.dataW.toNat ∧ advance s = s.setCur (s.curI + 1#16) s.curJ) ∨
    (¬ s.curI.toNat + 1 < s.dataW.toNat ∧ s.curJ.toNat + 1 < s.dataH.toNat ∧
      advance s = s.setCur 0#16 (s.curJ + 1#16)) ∨
    (¬ s.curI.toNat + 1 < s.dataW.toNat ∧ ¬ s.curJ.toNat + 1 < s.dataH.toNat ∧ advance s = s.finish) := by
  unfold advance
  split
  · exact .inl ⟨‹_›, rfl⟩
  · split
    · exact .inr (.inl ⟨‹_›, ‹_›, rfl⟩)
    · exact .inr (.inr ⟨‹_›, ‹_›, rfl⟩)

/-- The advance leaves every grid space alone. -/
@[simp] theorem pixel_advance (sp : GridSpace) (x y : Nat) (s : State) :
    (advance s).pixel sp x y = s.pixel sp x y := by
  rcases advance_cases s with ⟨_, h⟩ | ⟨_, _, h⟩ | ⟨_, _, h⟩ <;> simp [h]

theorem toNat_minDim (a b : Dim) : (minDim a b).toNat = min a.toNat b.toNat := by
  unfold minDim; split <;> omega

theorem toNat_twiceDim (d : Dim) : (twiceDim d).toNat = 2 * d.toNat := by
  have := d.isLt
  simp only [twiceDim, BitVec.toNat_ofNat]
  omega

theorem toNat_halfDim (d : Dim) : (halfDim d).toNat = d.toNat / 2 := by
  have := d.isLt
  simp only [halfDim, BitVec.toNat_ofNat]
  omega

/-! ### The engine -/

/-- A busy engine takes its step. -/
theorem engineTurn_busy {s : State} (h : s.busy = true) : engineTurn s = engineStep s := by
  simp [engineTurn, h]

/-- An idle engine has no step. -/
theorem engineTurn_idle {s : State} (h : s.busy = false) : engineTurn s = s := by
  simp [engineTurn, h]

/-- The writes of an ENCODE step. -/
theorem engineWrites_encode {s : State} (h : s.mode = .encode) :
    engineWrites s = encodeWrites s.curI.toNat s.curJ.toNat s := by
  simp [engineWrites, h]

/-- The writes of a DECODE step. -/
theorem engineWrites_decode {s : State} (h : s.mode = .decode) :
    engineWrites s = decodeWrites s.curI.toNat s.curJ.toNat s := by
  simp [engineWrites, h]

/-- The coordinates an ENCODE body writes are those whose halves are its data coordinate (R179). -/
theorem encodeWrites_spots {i j : Nat} {s : State} {w : Cell} (h : w ∈ encodeWrites i j s) :
    w.x / 2 = i ∧ w.y / 2 = j := by
  simp only [encodeWrites, List.mem_cons, List.not_mem_nil, or_false] at h
  rcases h with rfl | rfl | rfl | rfl <;> simp only <;> omega

/-- The one coordinate a DECODE body writes is its data coordinate. -/
theorem decodeWrites_spots {i j : Nat} {s : State} {w : Cell} (h : w ∈ decodeWrites i j s) :
    w.x = i ∧ w.y = j := by
  simp only [decodeWrites, List.mem_cons, List.not_mem_nil, or_false] at h
  subst h
  exact ⟨rfl, rfl⟩

/-! ### One step -/

/-- With a move waiting, the step is that move. -/
theorem step_move {s : State} {m : Move} {rest : List Move} (h : s.inputs = m :: rest) :
    step s = applyMove m (s.setInputs rest) := by
  simp [step, nextMove, h]

/-- With no move waiting, the step is the engine's turn. -/
theorem step_quiet {s : State} (h : s.inputs = []) : step s = .next (engineTurn s) := by
  simp [step, nextMove, h]

/-- Everything a RegWrite can do: a command, an illegal word, a data register, or nothing. -/
theorem regWrite_cases (n : RegNum) (v : Word) (s : State) :
    (HostReg.ofNumber n = some .cmd ∧ ∃ i, decode v = .command i ∧ regWrite n v s = exec i s) ∨
    (HostReg.ofNumber n = some .cmd ∧ (∃ w, decode v = .illegal w) ∧
      regWrite n v s = .next (raise .illegalCmd v s)) ∨
    (∃ r, r ≠ HostReg.cmd ∧ HostReg.ofNumber n = some r ∧ regWrite n v s = .next (r.writeData v s)) ∨
    (HostReg.ofNumber n = none ∧ regWrite n v s = .next s) := by
  unfold regWrite
  cases hn : HostReg.ofNumber n with
  | none => simp
  | some r =>
    by_cases hr : r = .cmd
    · subst hr
      unfold issueCommand
      cases hd : decode v <;> simp
    · refine .inr (.inr (.inl ⟨r, hr, rfl, ?_⟩))
      cases r <;> simp_all

/-! ### Each command as the issue of its effect -/

theorem exec_nop (s : State) : exec .nop s = .next s := rfl

theorem exec_split (s : State) : exec .split s =
    issue .split (fun s => s.setRes0 (resultGroups (split (operandByte s)))) s := rfl

theorem exec_trunc (s : State) : exec .trunc s =
    issue .trunc (fun s => s.setRes0 (resultByte (truncateLowBits (operandByte s)))) s := rfl

theorem exec_combine (s : State) : exec .combine s =
    issue .combine (fun s =>
      if operandGroupsInDomain s then s.setRes0 (resultByte (combine (operandGroups s)))
      else raise .operandRange (encode .combine) s) s := rfl

theorem exec_merge (s : State) : exec .merge s =
    issue .merge (fun s => s.setRes0 (pack4 (merge (operandCarrier s) (operandSecret s)))) s := rfl

theorem exec_extract (s : State) : exec .extract s =
    issue .extract (fun s => s.setRes0 (resultByte (extract (operandBytes s)))) s := rfl

theorem exec_encblk (s : State) : exec .encblk s =
    issue .encblk (fun s => s.setRes ((encBlock (operandP s) (operandQ s)).map resultPixel)) s := rfl

theorem exec_decblk (s : State) : exec .decblk s =
    issue .decblk (fun s => s.setRes0 (resultPixel (decBlock (operandBlock s)))) s := rfl

theorem exec_encode (s : State) : exec .encode s =
    issue .encode (fun s => accept .encode (minDim s.aW s.bW) (minDim s.aH s.bH)
      (twiceDim (minDim s.aW s.bW)) (twiceDim (minDim s.aH s.bH)) s) s := rfl

theorem exec_decode (s : State) : exec .decode s =
    issue .decode (fun s => accept .decode (halfDim s.aW) (halfDim s.aH)
      ((halfDim s.aW).setWidth 17) ((halfDim s.aH).setWidth 17) s) s := rfl

/-- Every command is an `issue` of an effect of its own, NOP apart. -/
theorem exec_issue (i : Instr) (h : i ≠ .nop) :
    ∃ f : State → State, ∀ s, exec i s = issue i f s := by
  cases i
  case nop => exact absurd rfl h
  all_goals exact ⟨_, fun _ => rfl⟩

end Sys2Proof.Machine
end

