-- ==== Sys2Proof/Laws/PerInstr.lean ====
section
/-! SUPPORT. The family RoundTrip: for each command, decoding its word gives it back, and its word and its
term are well-formed (30_encoding.md R90, R91, R93). -/

namespace Sys2Proof.Laws.RoundTrip

/-- Decoding the word of `i` gives `i`, from a well-formed word and a well-formed term. -/
def Statement (i : Instr) : Prop :=
  decode (encode i) = .command i ∧ wellFormedWord (encode i) = true ∧ i.wellFormed = true

theorem nop : Statement .nop := by unfold Statement; decide
theorem split : Statement .split := by unfold Statement; decide
theorem trunc : Statement .trunc := by unfold Statement; decide
theorem combine : Statement .combine := by unfold Statement; decide
theorem merge : Statement .merge := by unfold Statement; decide
theorem extract : Statement .extract := by unfold Statement; decide
theorem encblk : Statement .encblk := by unfold Statement; decide
theorem decblk : Statement .decblk := by unfold Statement; decide
theorem encode : Statement .encode := by unfold Statement; decide
theorem decode : Statement .decode := by unfold Statement; decide

end Sys2Proof.Laws.RoundTrip
end

