-- ==== Sys2Proof/Tests/Slice0.lean ====
section
/-! SUPPORT. Tests of the model against the vectors of 95_test_vectors.md, and a witness for the hypotheses
of every statement. Each expected value is the spec's; each test names its vector. -/

namespace Sys2Proof.Tests

open Sys2Proof Sys2Proof.Machine

/-! ### Helpers -/

/-- The outcome is a next state that passes `p`. -/
def nextIs (o : Host.Outcome State Fault Refusal) (p : State → Bool) : Bool :=
  match o with
  | .next t => p t
  | .fault _ => false
  | .refused _ => false

/-- The host writes `v` to register `n`. -/
def wr (n : RegNum) (v : Word) (s : State) (p : State → Bool) : Bool := nextIs (regWrite n v s) p

/-- The reset state with the given operands. -/
def ops (a b c d : Word) : State := { State.reset with op0 := a, op1 := b, op2 := c, op3 := d }

/-- The reset state with the given input dimensions. -/
def dims (aW aH bW bH : Dim) : State := { State.reset with aW := aW, aH := aH, bW := bW, bH := bH }

/-- An ENCODE of a one-pixel carrier and secret, just accepted (V-ENC-6, with the pixels of section 1). -/
def encodeOne : State :=
  { State.reset with
    aW := 1#16, aH := 1#16, bW := 1#16, bH := 1#16, oW := 2#17, oH := 2#17, dataW := 1#16, dataH := 1#16
    busy := true, ga := [⟨0, 0, 0x050AC8#24⟩], gb := [⟨0, 0, 0x01FA4D#24⟩] }

/-- The same after its one step: GO holds the block of section 1. -/
def encodedOne : State :=
  { encodeOne with
    busy := false, done := true
    go := [⟨0, 0, 0x040BC9#24⟩, ⟨1, 0, 0x040BC8#24⟩, ⟨0, 1, 0x040ACB#24⟩, ⟨1, 1, 0x050AC9#24⟩] }

/-- A DECODE of that block, just accepted. -/
def decodeOne : State :=
  { State.reset with
    aW := 2#16, aH := 2#16, oW := 1#17, oH := 1#17, dataW := 1#16, dataH := 1#16, mode := .decode
    busy := true, ga := encodedOne.go }

/-- An ENCODE with a 2 by 2 data region, at its first coordinate. -/
def encodeFour : State :=
  { State.reset with
    oW := 4#17, oH := 4#17, dataW := 2#16, dataH := 2#16, busy := true }

/-! ### Well-formedness: an ill-formed word for each check, which the check refuses -/

/-- R90: bit 4 is not 0 (V-ERR-2). -/
theorem test_zero_field_refuses : zeroFieldOk 0x00000010#32 = false := by decide
/-- R90: bit 31 is not 0 (V-ERR-3). -/
theorem test_zero_field_refuses_top : zeroFieldOk 0x80000001#32 = false := by decide
/-- R94: `op` 0xA is reserved (V-ERR-1). -/
theorem test_op_field_refuses : opFieldOk 0x0000000A#32 = false := by decide
/-- R94, R95: neither word is a command's. -/
theorem test_word_refuses :
    wellFormedWord 0x0000000F#32 = false ∧ wellFormedWord 0x00000013#32 = false ∧
    wellFormedWord 0x00000009#32 = true := by decide

/-! ### Decoding: each row of the table of R93, bits 31:4 zero and bits 3:0 written out -/

theorem test_decode_nop : decode (0#28 ++ 0b0000#4) = .command .nop := by decide
theorem test_decode_split : decode (0#28 ++ 0b0001#4) = .command .split := by decide
theorem test_decode_trunc : decode (0#28 ++ 0b0010#4) = .command .trunc := by decide
theorem test_decode_combine : decode (0#28 ++ 0b0011#4) = .command .combine := by decide
theorem test_decode_merge : decode (0#28 ++ 0b0100#4) = .command .merge := by decide
theorem test_decode_extract : decode (0#28 ++ 0b0101#4) = .command .extract := by decide
theorem test_decode_encblk : decode (0#28 ++ 0b0110#4) = .command .encblk := by decide
theorem test_decode_decblk : decode (0#28 ++ 0b0111#4) = .command .decblk := by decide
theorem test_decode_encode : decode (0#28 ++ 0b1000#4) = .command .encode := by decide
theorem test_decode_decode : decode (0#28 ++ 0b1001#4) = .command .decode := by decide
/-- R94, R95: the two kinds of illegal word. -/
theorem test_decode_illegal :
    decode 0x0000000A#32 = .illegal (.reservedOp 0xA#4) ∧
    decode 0x80000001#32 = .illegal (.nonzeroField 0x8000000#28) ∧
    decodeTableWord 32 0x10 = none := by decide

/-! ### The commands -/

/-- V-HST-2: NOP changes nothing; V-ERR-9: it is accepted while BUSY = 1. -/
theorem test_nop : wr 0x00#5 0x00000000#32 encodeOne (fun t => decide (t = encodeOne)) = true := by decide
/-- V-SPL-4. -/
theorem test_split : wr 0x00#5 0x00000001#32 (ops 0x1B#32 0#32 0#32 0#32)
    (fun t => t.res0 == 0x03020100#32) = true := by decide
/-- V-SPL-10: OP0[31:8] is not read. -/
theorem test_split_upper : wr 0x00#5 0x00000001#32 (ops 0xDEADBE4D#32 0#32 0#32 0#32)
    (fun t => t.res0 == 0x01030001#32) = true := by decide
/-- V-SPL-2, TRUNC column. -/
theorem test_trunc : wr 0x00#5 0x00000002#32 (ops 0xFF#32 0#32 0#32 0#32)
    (fun t => t.res0 == 0x000000FC#32) = true := by decide
/-- V-SPL-10, TRUNC column. -/
theorem test_trunc_upper : wr 0x00#5 0x00000002#32 (ops 0xDEADBE4D#32 0#32 0#32 0#32)
    (fun t => t.res0 == 0x0000004C#32) = true := by decide
/-- V-CMB-4. -/
theorem test_combine : wr 0x00#5 0x00000003#32 (ops 0x03020100#32 0#32 0#32 0#32)
    (fun t => t.res0 == 0x0000001B#32) = true := by decide
/-- V-CMB-11: lane 2 holds 4. -/
theorem test_combine_range : wr 0x00#5 0x00000003#32 (ops 0x00040000#32 0#32 0#32 0#32)
    (fun t => regRead 0x01#5 t == 0x00000034#32 && t.errCmd == 0x00000003#32 && t.res0 == 0#32) = true := by
  decide
/-- V-MRG-1. -/
theorem test_merge : wr 0x00#5 0x00000004#32 (ops 0x00004DC8#32 0#32 0#32 0#32)
    (fun t => t.res0 == 0xC9CBC8C9#32) = true := by decide
/-- V-MRG-2. -/
theorem test_merge_low_bits : wr 0x00#5 0x00000004#32 (ops 0x0000FA0A#32 0#32 0#32 0#32)
    (fun t => t.res0 == 0x0A0A0B0B#32) = true := by decide
/-- V-EXT-5. -/
theorem test_extract : wr 0x00#5 0x00000005#32 (ops 0xFFFEFDFC#32 0#32 0#32 0#32)
    (fun t => t.res0 == 0x0000001B#32) = true := by decide
/-- V-ENB-6: the channels do not mix. -/
theorem test_encblk : wr 0x00#5 0x00000006#32 (ops 0x00563412#32 0x00801BE4#32 0#32 0#32)
    (fun t => t.res0 == 0x00563413#32 && t.res1 == 0x00543512#32 && t.res2 == 0x00543611#32 &&
      t.res3 == 0x00543710#32) = true := by decide
/-- V-ENB-7: bits 31:24 are not read and the results' are 0. -/
theorem test_encblk_upper : wr 0x00#5 0x00000006#32 (ops 0xAA050AC8#32 0xBB01FA4D#32 0#32 0#32)
    (fun t => t.res0 == 0x00040BC9#32 && t.res3 == 0x00050AC9#32) = true := by decide
/-- V-DEB-5. -/
theorem test_decblk : wr 0x00#5 0x00000007#32 (ops 0x00010203#32 0x00020301#32 0x00030102#32 0#32)
    (fun t => t.res0 == 0x006CB4D8#32) = true := by decide
/-- V-DEB-6: any grid is accepted. -/
theorem test_decblk_any :
    wr 0x00#5 0x00000007#32 (ops 0x00ABCDEF#32 0x00123456#32 0x00777777#32 0x00FEDCBA#32)
      (fun t => t.res0 == 0x00EE4CEE#32) = true := by decide
/-- V-ENC-7: O_W needs 17 bits. -/
theorem test_encode : wr 0x00#5 0x00000008#32 (dims 0xFFFF#16 1#16 0xFFFF#16 1#16)
    (fun t => regRead 0x07#5 t == 0x0001FFFE#32 && regRead 0x08#5 t == 2#32 &&
      regRead 0x01#5 t == 0x00000001#32) = true := by decide
/-- V-ENC-3: empty in x only, O_H is 10. -/
theorem test_encode_empty : wr 0x00#5 0x00000008#32 (dims 0#16 5#16 7#16 5#16)
    (fun t => regRead 0x01#5 t == 0x00000002#32 && regRead 0x08#5 t == 10#32 &&
      regRead 0x0A#5 t == 5#32) = true := by decide
/-- V-DEC-2: odd dimensions. -/
theorem test_decode : wr 0x00#5 0x00000009#32 (dims 5#16 3#16 7#16 0#16)
    (fun t => regRead 0x01#5 t == 0x00000009#32 && regRead 0x09#5 t == 2#32 && regRead 0x0A#5 t == 1#32 &&
      regRead 0x07#5 t == 2#32) = true := by decide
/-- V-DEC-3: A_W = 1 gives an empty result. -/
theorem test_decode_empty : wr 0x00#5 0x00000009#32 (dims 1#16 9#16 0#16 0#16)
    (fun t => regRead 0x01#5 t == 0x0000000A#32 && regRead 0x0A#5 t == 4#32) = true := by decide

/-! ### The engine -/

/-- V-ENC-6 with the pixels of section 1: the one step is also the last. -/
theorem test_engine_encode : engineTurn encodeOne = encodedOne := by decide
/-- Section 1, the whole pixel round trip, as a grid step: GO(0, 0) = (77, 250, 1). -/
theorem test_engine_decode : engineTurn decodeOne =
    { decodeOne with busy := false, done := true, go := [⟨0, 0, 0x01FA4D#24⟩] } := by decide
/-- R236: raster order, x first. -/
theorem test_engine_advance : (advance encodeFour).curI = 1#16 ∧ (advance encodeFour).curJ = 0#16 ∧
    (advance (advance encodeFour)).curI = 0#16 ∧ (advance (advance encodeFour)).curJ = 1#16 := by decide

/-! ### Host accesses, errors and flags -/

/-- V-HST-5 and V-HST-4. -/
theorem test_ctrl_and_read_only :
    wr 0x02#5 0xFFFFFFFF#32 State.reset (fun t => regRead 0x02#5 t == 3#32) = true ∧
    wr 0x14#5 0x12345678#32 State.reset (fun t => decide (t = State.reset)) = true := by decide
/-- V-ENC-8. -/
theorem test_dimension_write : wr 0x03#5 0x0001FFFF#32 State.reset
    (fun t => regRead 0x03#5 t == 0x0000FFFF#32) = true := by decide
/-- V-ERR-1, V-ERR-4, V-ERR-5. -/
theorem test_first_error_wins :
    wr 0x00#5 0x0000000A#32 State.reset (fun t =>
      regRead 0x01#5 t == 0x00000014#32 && wr 0x00#5 0x0000000F#32 t (fun u =>
        u.errCmd == 0x0000000A#32 && wr 0x01#5 0x00000004#32 u (fun w =>
          regRead 0x01#5 w == 0#32 && w.errCmd == 0x0000000A#32))) = true := by decide
/-- V-ERR-6, V-ERR-7, V-ERR-8. -/
theorem test_error_priority :
    wr 0x00#5 0x00000001#32 encodeOne (fun t => regRead 0x01#5 t == 0x00000025#32) = true ∧
    wr 0x00#5 0x0000000B#32 encodeOne (fun t => regRead 0x01#5 t == 0x00000015#32) = true ∧
    wr 0x00#5 0x00000003#32 { encodeOne with op0 := 4#32 }
      (fun t => regRead 0x01#5 t == 0x00000025#32) = true := by decide
/-- V-IRQ-1. -/
theorem test_irq : wr 0x00#5 0x0000000C#32 { State.reset with errIe := true } (fun t =>
    irq t && wr 0x01#5 0x00000004#32 t (fun u => !irq u)) = true := by decide
/-- V-IRQ-3: bit 0 of STATUS is not write-one-to-clear. -/
theorem test_status_bit_zero : wr 0x01#5 0x00000001#32 encodedOne
    (fun t => decide (t = encodedOne)) = true := by decide

/-! ### Steps, the platform and reset -/

/-- Line 2 of program P1: the very next step runs MERGE. -/
theorem test_fetch : nextIs (step ((ops 0x00004DC8#32 0#32 0#32 0#32).withFetchWord 32 4))
    (fun t => t.res0 == 0xC9CBC8C9#32) = true := by decide
/-- Line 22 of program P2, and U4. -/
theorem test_platform :
    nextIs (step { encodedOne with inputs := [.getGO 1#17 1#17] })
      (fun t => t.gpData == 0x050AC9#24) = true ∧
    step { encodeOne with inputs := [.setGA 0#16 0#16 0#24] } = .refused .platformWriteWhileBusy := by
  exact ⟨by decide, rfl⟩
/-- V-RST-1, with two of the four pixels of the cut-short step landed (R292). -/
theorem test_reset : nextIs (step { encodeOne with op0 := 0x4DC8#32, inputs := [.assertReset 2] })
    (fun t => decide (t = { State.reset with
      ga := encodeOne.ga, gb := encodeOne.gb, go := [⟨0, 0, 0x040BC9#24⟩, ⟨1, 0, 0x040BC8#24⟩]
      rst := true })) = true := by decide

/-! ### Witnesses: for each statement with hypotheses, a concrete state and operands that meet them, at a
boundary value for each clause -/

theorem encodeOne_inv : encodeOne.Inv where
  gaWf := by decide
  gbWf := by decide
  goWf := by decide
  scanInRange := by decide
  notBoth := by decide
  scanAtRest := by decide
  causeIffErr := by decide
  errCmdFits := by simp [encodeOne]
  outDims := by decide
  heldInReset := by decide

theorem encodedOne_inv : encodedOne.Inv where
  gaWf := by decide
  gbWf := by decide
  goWf := by decide
  scanInRange := by decide
  notBoth := by decide
  scanAtRest := by decide
  causeIffErr := by decide
  errCmdFits := by simp [encodedOne, encodeOne]
  outDims := by decide
  heldInReset := by decide

theorem decodeOne_inv : decodeOne.Inv where
  gaWf := by decide
  gbWf := by decide
  goWf := by decide
  scanInRange := by decide
  notBoth := by decide
  scanAtRest := by decide
  causeIffErr := by decide
  errCmdFits := by simp [decodeOne]
  outDims := by decide
  heldInReset := by decide

/-- The least and the largest illegal words, and one that only R95 makes illegal. -/
theorem witness_IllegalWordOnlyRaises :
    IllegalWord 0x0000000A#32 ∧ IllegalWord 0xFFFFFFFF#32 ∧ IllegalWord 0x00000010#32 := by
  unfold IllegalWord; decide

/-- The first and the last command, with `rst` 0 and 1. -/
theorem witness_StepRunsDecodedCommand :
    ({ State.reset with inputs := [.write 0#5 0#32] } : State).inputs = [.write 0x00#5 0x00000000#32] ∧
    ({ State.reset with inputs := [.write 0#5 9#32] } : State).rst = false ∧
    ({ State.reset with inputs := [.write 0#5 9#32], rst := true } : State).rst = true ∧
    decode 0x00000000#32 = .command .nop ∧ decode 0x00000009#32 = .command .decode := by decide

/-- A move, no move, a platform write while idle, one while busy, and another move while busy. -/
theorem witness_StepIsTheNextMove :
    ({ State.reset with inputs := [.engine] } : State).inputs = [.engine] ∧
    State.reset.inputs = [] ∧
    (Move.setGO 0x1FFFF#17 0#17 0#24).isPlatformWrite = true ∧ State.reset.busy = false ∧
    encodeOne.busy = true ∧ (Move.write 0#5 1#32).isPlatformWrite = false := by decide

/-- A SPLIT at the largest value. -/
theorem witness_CombineInvertsSplit :
    (ops 0xFF#32 0#32 0#32 0#32).busy = false ∧
    exec .split (ops 0xFF#32 0#32 0#32 0#32) =
      .next { ops 0xFF#32 0#32 0#32 0#32 with res0 := 0x03030303#32 } := ⟨rfl, rfl⟩

/-- The last group, and two carriers with the same top six bits. -/
theorem witness_MergeKeepsCarrierTop :
    3 < 4 ∧ (0xFC#8).extractLsb' 2 6 = (0xFF#8).extractLsb' 2 6 := by decide

/-- Different values with the same low bits (V-EXT-4, V-EXT-6). -/
theorem witness_ExtractInvertsMerge : ∀ k, k < 4 →
    ((⟨3#8, 2#8, 1#8, 0#8⟩ : Quad Byte).get k).extractLsb' 0 2 =
      ((⟨7#8, 6#8, 5#8, 4#8⟩ : Quad Byte).get k).extractLsb' 0 2 := by decide

/-- The last channel and block index; also for EncodedBlockLooksLikeCarrier and DecBlockChannels. -/
theorem witness_EncBlockChannels : 2 < 3 ∧ 3 < 4 ∧
    chan 2 ((encBlock 0x563412#24 0x801BE4#24).get 3) = 0x54#8 := by decide

/-- Two different blocks with the same low bits in every channel (V-DEB-2, V-DEB-4). -/
theorem witness_DecBlockInvertsEncBlock : ∀ c k, c < 3 → k < 4 →
    (chan c ((⟨0#24, 0#24, 0#24, 0#24⟩ : Quad Pixel).get k)).extractLsb' 0 2 =
      (chan c ((⟨0xFCFCFC#24, 0xFCFCFC#24, 0xFCFCFC#24, 0xFCFCFC#24⟩ : Quad Pixel).get k)).extractLsb' 0 2 := by
  intro c k hc hk
  interval_cases c <;> interval_cases k <;> decide

/-- `rst` is 0 after reset, idle or busy. -/
theorem witness_NopDoesNothing : State.reset.rst = false ∧ encodeOne.rst = false := by decide

/-- Idle and busy: for the results of SPLIT, TRUNC, MERGE, EXTRACT, ENCBLK and DECBLK. -/
theorem witness_SplitWritesGroups :
    (ops 0x80#32 0#32 0#32 0#32).busy = false ∧ encodeOne.busy = true := by decide

/-- An ENCBLK that runs (V-ENB-5). -/
theorem witness_DecblkWritesPixel :
    (ops 0#32 0x00FFFFFF#32 0#32 0#32).busy = false ∧
    exec .encblk (ops 0#32 0x00FFFFFF#32 0#32 0#32) = .next { ops 0#32 0x00FFFFFF#32 0#32 0#32 with
      res0 := 0x00030303#32, res1 := 0x00030303#32, res2 := 0x00030303#32, res3 := 0x00030303#32 } :=
  ⟨rfl, rfl⟩

/-- COMBINE: every lane 3, then a lane of 4 at either end, then busy. -/
theorem witness_CombineJoinsGroups :
    (∀ k, k < 4 → ((ops 0x03030303#32 0#32 0#32 0#32).op0.extractLsb' (8 * k) 8).toNat ≤ 3) ∧
    3 < ((ops 0x00000004#32 0#32 0#32 0#32).op0.extractLsb' (8 * 0) 8).toNat ∧
    3 < ((ops 0x04000000#32 0#32 0#32 0#32).op0.extractLsb' (8 * 3) 8).toNat ∧
    (ops 0x04000000#32 0#32 0#32 0#32).busy = false ∧ encodeOne.busy = true := by decide

/-- ENCODE: the smallest and the largest region with pixels, and a region empty on either axis. -/
theorem witness_EncodeAcceptance :
    ¬ ((dims 1#16 1#16 1#16 1#16).aW = 0#16 ∨ (dims 1#16 1#16 1#16 1#16).aH = 0#16) ∧
    ¬ ((dims 0xFFFF#16 0xFFFF#16 0xFFFF#16 0xFFFF#16).aW = 0#16 ∨
      (dims 0xFFFF#16 0xFFFF#16 0xFFFF#16 0xFFFF#16).aH = 0#16) ∧
    minDim (dims 0#16 5#16 7#16 5#16).aW (dims 0#16 5#16 7#16 5#16).bW = 0#16 ∧
    minDim (dims 4#16 4#16 4#16 0#16).aH (dims 4#16 4#16 4#16 0#16).bH = 0#16 ∧
    (dims 0#16 5#16 7#16 5#16).busy = false ∧ encodeOne.busy = true := by decide

/-- DECODE: the smallest region with pixels, and regions empty on either axis because of a 1. -/
theorem witness_DecodeAcceptance :
    ¬ ((dims 2#16 2#16 0#16 0#16).aW >>> 1 = 0#16 ∨ (dims 2#16 2#16 0#16 0#16).aH >>> 1 = 0#16) ∧
    (dims 1#16 9#16 0#16 0#16).aW >>> 1 = 0#16 ∧ (dims 9#16 1#16 0#16 0#16).aH >>> 1 = 0#16 ∧
    (dims 1#16 9#16 0#16 0#16).busy = false ∧ decodeOne.busy = true := by decide

/-- A scalar command, idle and busy, with its operand in the domain and outside. -/
theorem witness_ScalarCommandFrame :
    Instr.combine ≠ .encode ∧ Instr.combine ≠ .decode ∧ Instr.encblk ≠ .combine ∧
    (ops 0x03030303#32 0#32 0#32 0#32).op0 &&& 0xFCFCFCFC#32 = 0#32 ∧
    (ops 0#32 0#32 0#32 0#32).busy = false ∧ encodeOne.busy = true := by decide

/-- A grid command, idle and busy. -/
theorem witness_GridCommandFrame :
    (Instr.decode = .encode ∨ Instr.decode = .decode) ∧ State.reset.busy = false ∧ decodeOne.busy = true := by
  decide

/-- The last command while a grid command runs (V-ERR-10 with DECODE). -/
theorem witness_BusyRefusesCommand :
    decode 0x00000009#32 = .command .decode ∧ Instr.decode ≠ .nop ∧ encodeOne.busy = true := by decide

/-- One step for each of the three causes. -/
theorem witness_ErrorSources :
    nextIs (step { State.reset with inputs := [.write 0#5 0xA#32] })
      (fun t => t.err && t.cause == .illegalCmd) = true ∧
    nextIs (step { encodeOne with inputs := [.write 0#5 1#32] })
      (fun t => t.err && t.cause == .cmdWhileBusy) = true ∧
    nextIs (step { ops 0x04000000#32 0#32 0#32 0#32 with inputs := [.write 0#5 3#32] })
      (fun t => t.err && t.cause == .operandRange) = true := by decide

/-- A command that raises while busy, COMBINE that raises while idle, and a word that is no command. -/
theorem witness_WhichCommandRaises :
    encodeOne.err = false ∧ nextIs (exec .trunc encodeOne) (fun t => t.err && encodeOne.busy) = true ∧
    nextIs (exec .combine (ops 0x00000400#32 0#32 0#32 0#32)) (fun t => t.err) = true ∧
    ∀ i, decode 0x0000000F#32 ≠ .command i := by
  refine ⟨by decide, by decide, by decide, fun i => ?_⟩
  cases i <;> decide

/-- The last coordinate, with a host write to STATUS and to CMD in the same clock as the engine's step. -/
theorem witness_ErrorPriority :
    encodeOne.busy = true ∧ encodeOne.err = false ∧ encodeOne.rst = false ∧
    encodeOne.curI.toNat + 1 = encodeOne.dataW.toNat ∧ encodeOne.curJ.toNat + 1 = encodeOne.dataH.toNat ∧
    ({ encodeOne with inputs := [.write 1#5 2#32, .engine] } : State).inputs =
      [.write 0x01#5 0x00000002#32, .engine] ∧
    ({ encodeOne with inputs := [.write 0#5 9#32, .engine] } : State).inputs =
      [.write 0x00#5 (encode .decode), .engine] ∧ IllegalWord 0x0000000B#32 := by
  refine ⟨by decide, by decide, by decide, by decide, by decide, rfl, rfl, ?_⟩
  unfold IllegalWord; decide

/-- Each cause, on a state with an error already recorded and ERR_IE set. -/
theorem witness_FirstErrorWins :
    nextIs (regWrite 0x00#5 0x0000000A#32 { State.reset with err := true, cause := .operandRange, errIe := true })
      (fun t => t.err && irq t) = true ∧ IllegalWord 0x0000000A#32 ∧
    nextIs (regWrite 0x00#5 0x00000008#32 encodeOne) (fun t => t.err) = true ∧ Instr.encode ≠ .nop ∧
    0x00000008#32 = encode .encode ∧
    nextIs (regWrite 0x00#5 0x00000003#32 (ops 4#32 0#32 0#32 0#32)) (fun t => t.err) = true ∧
    (ops 4#32 0#32 0#32 0#32).op0 &&& 0xFCFCFCFC#32 ≠ 0#32 := by
  unfold IllegalWord; decide

/-- An error pending, idle with an illegal word and busy with a command (V-ERR-4, V-ERR-11). -/
theorem witness_ErrorClearAndNesting :
    ({ State.reset with err := true, cause := .illegalCmd } : State).err = true ∧ IllegalWord 0x0000000F#32 ∧
    ({ encodeOne with err := true, cause := .illegalCmd } : State).busy = true ∧ State.reset.err = false ∧
    exec .nop State.reset = .next State.reset := by
  refine ⟨rfl, ?_, rfl, rfl, rfl⟩
  unfold IllegalWord; decide

theorem witness_RegisterReads :
    ({ State.reset with inputs := [.read 0x1F#5] } : State).inputs = [.read 0x1F#5] := rfl

/-- The numbers next to CMD's and the operands' ranges, where a write has no effect. -/
theorem witness_RegisterWrites :
    0x07 ≤ (0x0F#5 : RegNum).toNat ∧ ¬ (0x10 ≤ (0x0F#5 : RegNum).toNat ∧ (0x0F#5 : RegNum).toNat ≤ 0x13) ∧
    0x07 ≤ (0x14#5 : RegNum).toNat ∧ ¬ (0x10 ≤ (0x14#5 : RegNum).toNat ∧ (0x14#5 : RegNum).toNat ≤ 0x13) ∧
    0x07 ≤ (0x07#5 : RegNum).toNat ∧ 0x07 ≤ (0x1F#5 : RegNum).toNat := by decide

/-- Both ends of every range of R35. -/
theorem witness_ReservedNumbersIgnored :
    0x18 ≤ (0x18#5 : RegNum).toNat ∧ 0x18 ≤ (0x1F#5 : RegNum).toNat ∧
    (0x07#5 : RegNum).toNat = 0x07 ∧ (0x0D#5 : RegNum).toNat = 0x0D ∧
    (0x14#5 : RegNum).toNat = 0x14 ∧ (0x17#5 : RegNum).toNat = 0x17 := by decide

/-- A write to CMD, to another register, and to CMD while busy. -/
theorem witness_HostWriteFrame :
    hostWrite 0x00#5 0x00000000#32 State.reset = .next State.reset ∧
    hostWrite 0x1F#5 0xFFFFFFFF#32 State.reset = .next State.reset ∧ (0x1F#5 : RegNum) ≠ 0x00#5 ∧
    hostWrite 0x00#5 0x00000000#32 encodeOne = .next encodeOne ∧ encodeOne.busy = true :=
  ⟨rfl, rfl, by decide, rfl, rfl⟩

/-- A poll with BUSY = 0 and one with BUSY = 1. -/
theorem witness_WaitPollsStatus :
    ({ State.reset with inputs := [.wait] } : State).busy = false ∧
    ({ encodeOne with inputs := [.wait] } : State).busy = true := by decide

/-- The three ways the scan goes on, and no step. -/
theorem witness_EngineAdvance :
    State.reset.busy = false ∧ encodeFour.busy = true ∧
    encodeFour.curI.toNat + 1 < encodeFour.dataW.toNat ∧
    ¬ (advance encodeFour).curI.toNat + 1 < (advance encodeFour).dataW.toNat ∧
    (advance encodeFour).curJ.toNat + 1 < (advance encodeFour).dataH.toNat ∧
    ¬ encodeOne.curI.toNat + 1 < encodeOne.dataW.toNat ∧
    ¬ encodeOne.curJ.toNat + 1 < encodeOne.dataH.toNat := by decide

/-- A running ENCODE, and the coordinate next to its block. -/
theorem witness_EncodeStepWritesBlock :
    encodeOne.busy = true ∧ encodeOne.mode = .encode ∧
    ¬ (2 / 2 = encodeOne.curI.toNat ∧ 0 / 2 = encodeOne.curJ.toNat) := by decide

/-- A running DECODE, and the coordinate next to its pixel. -/
theorem witness_DecodeStepWritesPixel :
    decodeOne.busy = true ∧ decodeOne.mode = .decode ∧
    ¬ (1 = decodeOne.curI.toNat ∧ 0 = decodeOne.curJ.toNat) := by decide

/-- Stores that differ just outside the region, for ENCODE and for DECODE. -/
theorem witness_EngineReadsOnlyItsRegion :
    encodeOne.Inv ∧ encodeOne.busy = true ∧ encodeOne.mode = .encode ∧
    (∀ x y, x < encodeOne.dataW.toNat → y < encodeOne.dataH.toNat →
      ({ encodeOne with ga := [⟨0, 0, 0x050AC8#24⟩, ⟨1, 0, 7#24⟩], gb := encodeOne.gb } : State).pixel .ga x y =
        encodeOne.pixel .ga x y) ∧
    decodeOne.Inv ∧ decodeOne.busy = true ∧ decodeOne.mode = .decode ∧
    (∀ x y, x < 2 * decodeOne.dataW.toNat → y < 2 * decodeOne.dataH.toNat →
      ({ decodeOne with ga := decodeOne.ga ++ [⟨2, 2, 7#24⟩], gb := [⟨0, 0, 7#24⟩] } : State).pixel .ga x y =
        decodeOne.pixel .ga x y) := by
  refine ⟨encodeOne_inv, rfl, rfl, fun x y hx hy => ?_, decodeOne_inv, rfl, rfl, fun x y hx hy => ?_⟩
  · have hx : x < 1 := hx
    have hy : y < 1 := hy
    obtain rfl : x = 0 := by omega
    obtain rfl : y = 0 := by omega
    rfl
  · have hx : x < 2 := hx
    have hy : y < 2 := hy
    interval_cases x <;> interval_cases y <;> rfl

/-- An engine step, from a state that meets the invariant, and the column just outside its rectangle. Also
for InputsReadOnlyOutputWriteOnly and StepKeepsInvariant. -/
theorem witness_OutputRectangleOnly :
    encodeOne.Inv ∧ step encodeOne = .next encodedOne ∧
    (∀ m rest, encodeOne.inputs = m :: rest → m.isPlatformWrite = false) ∧ encodeOne.oW.toNat ≤ 2 :=
  ⟨encodeOne_inv, rfl, fun _ _ h => (nomatch h), by decide⟩

/-- Each space at its largest coordinate, with BUSY = 0. -/
theorem witness_PlatformAccesses :
    encodedOne.busy = false ∧ (0x0FFFF#17 : ODim).toNat < 2 ^ 16 ∧
    Move.setGA 0xFFFF#16 0xFFFF#16 5#24 =
      .setGA ((0x0FFFF#17 : ODim).setWidth 16) ((0x0FFFF#17 : ODim).setWidth 16) 5#24 ∧
    ({ encodedOne with inputs := [.setGO 0x1FFFF#17 0x1FFFF#17 5#24, .getGO 0#17 0#17] } : State).inputs =
      .setGO 0x1FFFF#17 0x1FFFF#17 5#24 :: [.getGO 0#17 0#17] := by decide

/-- The same two pixels written in either order. -/
theorem witness_CanonicalStoresEqual :
    (Grid.put 1 0 7#24 (Grid.put 0 1 9#24 [])).wf 2 = true ∧
    (Grid.put 0 1 9#24 (Grid.put 1 0 7#24 [])).wf 2 = true ∧
    ∀ x y, (Grid.put 1 0 7#24 (Grid.put 0 1 9#24 [])).find x y =
      (Grid.put 0 1 9#24 (Grid.put 1 0 7#24 [])).find x y :=
  ⟨by decide, by decide, fun _ _ => rfl⟩

/-- An idle state with something in every store and in STATUS. -/
theorem witness_ResetValues : encodedOne.busy = false ∧ encodedOne.done = true := by decide

/-- Reset in the middle of an engine step, with no pixel landed and with all four. -/
theorem witness_ResetAction :
    ({ encodeOne with inputs := [.assertReset 0] } : State).inputs = [.assertReset 0] ∧
    ({ encodeOne with inputs := [.assertReset 4] } : State).inputs = [.assertReset 4] ∧
    ({ encodeOne with inputs := [.assertReset 4] } : State).busy = true ∧
    ({ encodedOne with inputs := [.assertReset 4] } : State).busy = false := by decide

/-- A HOST step and an engine step from states that meet the invariant. -/
theorem witness_StepKeepsInvariant :
    State.reset.Inv ∧ step State.reset = .next State.reset ∧ decodeOne.Inv ∧
    step decodeOne = .next { decodeOne with busy := false, done := true, go := [⟨0, 0, 0x01FA4D#24⟩] } :=
  ⟨⟨by decide, by decide, by decide, by decide, by decide, by decide, by decide, by simp, by decide, by decide⟩,
   rfl, decodeOne_inv, rfl⟩

/-- A freshly accepted ENCODE has made progress from itself, and its step ends it. -/
theorem witness_EncodeProgressKept :
    (dims 1#16 1#16 1#16 1#16).busy = false ∧
    nextIs (exec .encode (dims 1#16 1#16 1#16 1#16)) (fun t => t.busy) = true ∧
    encodeOne.Inv ∧ encodeOne.busy = true ∧ EncodeProgress encodeOne encodeOne ∧
    step encodeOne = .next encodedOne ∧
    (∀ m rest, encodeOne.inputs = m :: rest → m.isReset = false) := by
  refine ⟨rfl, rfl, encodeOne_inv, rfl, ⟨rfl, rfl, rfl, fun _ _ => rfl, fun _ _ => rfl, ?_, fun _ _ _ => rfl⟩,
    rfl, fun _ _ h => by cases h⟩
  rintro i j k ⟨_, _, h⟩
  have := h rfl
  simp [encodeOne] at this

/-- A freshly accepted DECODE has made progress from itself, and its step ends it. -/
theorem witness_DecodeProgressKept :
    (dims 2#16 2#16 0#16 0#16).busy = false ∧
    nextIs (exec .decode (dims 2#16 2#16 0#16 0#16)) (fun t => t.busy) = true ∧
    decodeOne.Inv ∧ decodeOne.busy = true ∧ DecodeProgress decodeOne decodeOne ∧
    nextIs (step decodeOne) (fun t => !t.busy) = true ∧
    (∀ m rest, decodeOne.inputs = m :: rest → m.isReset = false) := by
  refine ⟨rfl, rfl, decodeOne_inv, rfl, ⟨rfl, rfl, rfl, fun _ _ => rfl, fun _ _ => rfl, ?_, fun _ _ _ => rfl⟩,
    rfl, fun _ _ h => by cases h⟩
  rintro i j ⟨_, _, h⟩
  have := h rfl
  simp [decodeOne] at this

/-- One data coordinate, an empty region, and the largest dimensions; also for DecodeRunCompletes. -/
theorem witness_EncodeRunCompletes :
    (dims 1#16 1#16 1#16 1#16).busy = false ∧ (dims 1#16 1#16 1#16 1#16).inputs = [] ∧
    (dims 0#16 5#16 7#16 5#16).busy = false ∧ (dims 0#16 5#16 7#16 5#16).inputs = [] ∧
    (dims 0xFFFF#16 0xFFFF#16 0xFFFF#16 0xFFFF#16).busy = false := by decide

/-- The source's worked example: encode one pixel pair, carry the 2 by 2 rectangle of GO to GA, with A_W and
A_H equal to O_W and O_H (`d`), and with A_W one less (`c`). -/
theorem witness_GridRoundTrip :
    let s : State := { encodeOne with busy := false, oW := 0#17, oH := 0#17, dataW := 0#16, dataH := 0#16 }
    let d : State := { encodedOne with aW := 2#16, aH := 2#16, ga := encodedOne.go }
    let c : State := { d with aW := 1#16 }
    s.busy = false ∧ s.inputs = [] ∧ exec .encode s = .next encodeOne ∧
    Host.Core.run Sys2Proof.core (min s.aW.toNat s.bW.toNat * min s.aH.toNat s.bH.toNat) encodeOne =
      .next encodedOne ∧
    d.busy = false ∧ d.inputs = [] ∧ d.aW.toNat = encodedOne.oW.toNat ∧ d.aH.toNat = encodedOne.oH.toNat ∧
    (∀ x y, x < d.aW.toNat → y < d.aH.toNat → d.pixel .ga x y = encodedOne.pixel .go x y) ∧
    c.aW.toNat ≤ encodedOne.oW.toNat ∧ c.aH.toNat ≤ encodedOne.oH.toNat ∧
    (∀ x y, x < c.aW.toNat → y < c.aH.toNat → c.pixel .ga x y = encodedOne.pixel .go x y) := by
  refine ⟨rfl, rfl, rfl, rfl, rfl, rfl, rfl, rfl, fun x y hx hy => ?_, by decide, by decide,
    fun x y hx hy => ?_⟩
  · have hx : x < 2 := hx
    have hy : y < 2 := hy
    interval_cases x <;> interval_cases y <;> rfl
  · have hx : x < 1 := hx
    have hy : y < 2 := hy
    obtain rfl : x = 0 := by omega
    interval_cases y <;> rfl

/-- Two coordinates visited in either order. -/
theorem witness_EncodeOrderIndependent :
    [(0, 0), (1, 0)].Nodup ∧ [(0, 0), (1, 0)].Perm [(1, 0), (0, 0)] := by decide

end Sys2Proof.Tests
end

section
/-! Completion of a step: every command, register access and move answers a next state, a platform write
while STATUS.BUSY = 1 apart (20_memory.md R70, 93_implementation_defined.md U4). -/

namespace Sys2Proof.Machine

/-! ### Commands and register writes complete from every state -/

theorem issue_completes (i : Instr) (f : State → State) (s : State) : ∃ t, issue i f s = .next t := by
  cases h : s.busy with
  | false => exact ⟨_, issue_idle i f h⟩
  | true => exact ⟨_, issue_busy i f h⟩

theorem exec_completes (i : Instr) (s : State) : ∃ t, exec i s = .next t := by
  by_cases hi : i = .nop
  · exact ⟨s, hi ▸ exec_nop s⟩
  · obtain ⟨f, hf⟩ := exec_issue i hi
    exact hf s ▸ issue_completes i f s

theorem regWrite_completes (n : RegNum) (v : Word) (s : State) : ∃ t, regWrite n v s = .next t := by
  obtain ⟨_, i, _, h⟩ | ⟨_, _, h⟩ | ⟨_, _, _, h⟩ | ⟨_, h⟩ := regWrite_cases n v s
  · exact h ▸ exec_completes i s
  all_goals exact ⟨_, h⟩

/-- With `rst` at 0 a host write is the register write (R25). -/
theorem hostWrite_released {s : State} (n : RegNum) (v : Word) (h : s.rst = false) :
    hostWrite n v s = regWrite n v s := by
  simp [hostWrite, h]

/-- With `rst` held at 1 a host write is ignored (R290). -/
theorem hostWrite_held {s : State} (n : RegNum) (v : Word) (h : s.rst = true) :
    hostWrite n v s = .next s := by
  simp [hostWrite, h]

theorem hostWrite_completes (n : RegNum) (v : Word) (s : State) : ∃ t, hostWrite n v s = .next t := by
  cases h : s.rst with
  | false => exact hostWrite_released n v h ▸ regWrite_completes n v s
  | true => exact ⟨s, hostWrite_held n v h⟩

/-! ### The moves -/

theorem platformWrite_idle {s : State} (write : State → State) (h : s.busy = false) :
    platformWrite write s = .next (write s) := by
  simp [platformWrite, h]

theorem platformWrite_busy {s : State} (write : State → State) (h : s.busy = true) :
    platformWrite write s = .refused .platformWriteWhileBusy := by
  simp [platformWrite, h]

/-- SETPIX and the write of GO are a `platformWrite` of a store update of their own. -/
theorem applyMove_platformWrite {m : Move} (h : m.isPlatformWrite = true) :
    ∃ write : State → State, ∀ s, applyMove m s = platformWrite write s := by
  cases m
  case setGA | setGB | setGO => exact ⟨_, fun _ => rfl⟩
  all_goals cases h

/-- Every other move completes, whatever the state. -/
theorem applyMove_completes {m : Move} (h : m.isPlatformWrite = false) (s : State) :
    ∃ t, applyMove m s = .next t := by
  cases m
  case write n v => exact hostWrite_completes n v s
  case setGA | setGB | setGO => cases h
  all_goals exact ⟨_, rfl⟩

/-- A step completes if a platform write at the head of the list finds the engine at rest. -/
theorem completes_of_idle_platformWrite {s : State}
    (h : ∀ m rest, s.inputs = m :: rest → m.isPlatformWrite = true → s.busy = false) : Completes s := by
  cases hs : s.inputs with
  | nil => exact ⟨_, step_quiet hs⟩
  | cons m rest =>
    unfold Completes
    rw [step_move hs]
    cases hm : m.isPlatformWrite with
    | false => exact applyMove_completes hm _
    | true =>
      obtain ⟨write, hw⟩ := applyMove_platformWrite hm
      exact ⟨_, (hw _).trans (platformWrite_idle write (h m rest hs hm))⟩

/-- A platform write at the head of the list is refused while the engine runs (R238, R296). -/
theorem step_platformWrite_busy {s : State} {m : Move} {rest : List Move} (hs : s.inputs = m :: rest)
    (hm : m.isPlatformWrite = true) (hb : s.busy = true) :
    step s = .refused .platformWriteWhileBusy := by
  obtain ⟨write, hw⟩ := applyMove_platformWrite hm
  rw [step_move hs, hw]
  exact platformWrite_busy write hb

/-- Settles O6, from what each move can answer: only a platform write can be refused. -/
theorem stepIsTheNextMove : Obligations.StepIsTheNextMove := fun _ =>
  ⟨fun _ _ => step_move, step_quiet, completes_of_idle_platformWrite, fun _ _ => step_platformWrite_busy⟩

end Sys2Proof.Machine
end

section
/-! What a command can do, said once for all ten: the six outcomes of `exec`, what each leaves unchanged, and
the frames of the commands (46_host_commands.md R233, R234). -/

namespace Sys2Proof.Machine

/-! ### The six outcomes of a command -/

/-- The output dimensions `ow`, `oh` are those that mode `m` gives the data region `dw` by `dh` (R31, R173,
R203): the clauses of `State.Inv.outDims`, for values still to be latched. -/
def OutDimsFit (m : Mode) (dw dh : Dim) (ow oh : ODim) : Prop :=
  (m = .encode → ow.toNat = 2 * dw.toNat ∧ oh.toNat = 2 * dh.toNat) ∧
  (m = .decode → ow.toNat = dw.toNat ∧ oh.toNat = dh.toNat ∧
    2 * dw.toNat < 2 ^ Config.DIMW ∧ 2 * dh.toNat < 2 ^ Config.DIMW)

/-- `t` is what the command `i` can answer from `s`. -/
inductive CommandOutcome (i : Instr) (s : State) : State → Prop
  /-- NOP does nothing, whatever BUSY is (R230). -/
  | nop (hi : i = .nop) : CommandOutcome i s s
  /-- Every other command is refused while BUSY = 1 (R233). -/
  | refused (hi : i ≠ .nop) (hb : s.busy = true) :
      CommandOutcome i s (raise .cmdWhileBusy (encode i) s)
  /-- A scalar command with one result register. -/
  | single (hb : s.busy = false) (hi : i ∈ [.split, .trunc, .combine, .merge, .extract, .decblk]) (v : Word) :
      CommandOutcome i s (s.setRes0 v)
  /-- ENCBLK, with a result in all four (R172). -/
  | block (hb : s.busy = false) (hi : i = .encblk) (q : Quad Word) : CommandOutcome i s (s.setRes q)
  /-- COMBINE with a lane above 3 (R142). -/
  | outOfRange (hb : s.busy = false) (hi : i = .combine) (hd : operandGroupsInDomain s = false) :
      CommandOutcome i s (raise .operandRange (encode .combine) s)
  /-- A grid command is accepted (R173, R203). -/
  | accepted (hb : s.busy = false) (hi : i = .encode ∨ i = .decode) (m : Mode) (dw dh : Dim) (ow oh : ODim)
      (hfit : OutDimsFit m dw dh ow oh) : CommandOutcome i s (accept m dw dh ow oh s)

/-- The data region and output dimensions of ENCODE fit together (R173, R176). -/
theorem outDimsFit_encode (dw dh : Dim) :
    OutDimsFit .encode dw dh (twiceDim dw) (twiceDim dh) :=
  ⟨fun _ => ⟨toNat_twiceDim dw, toNat_twiceDim dh⟩, nofun⟩

/-- The data region and output dimensions of DECODE fit together (R203, R206). -/
theorem outDimsFit_decode (aW aH : Dim) :
    OutDimsFit .decode (halfDim aW) (halfDim aH) ((halfDim aW).setWidth 17) ((halfDim aH).setWidth 17) := by
  refine ⟨nofun, fun _ => ?_⟩
  have hw := aW.isLt
  have hh := aH.isLt
  simp only [BitVec.toNat_setWidth, toNat_halfDim, Config.DIMW]
  omega

/-- A command issued as `f` has the outcome of `f` at rest, and is refused otherwise. -/
theorem issue_outcome {i : Instr} {f : State → State} {s : State} (hi : i ≠ .nop)
    (hf : s.busy = false → CommandOutcome i s (f s)) :
    ∃ t, issue i f s = .next t ∧ CommandOutcome i s t := by
  cases hb : s.busy with
  | false => exact ⟨_, issue_idle i f hb, hf hb⟩
  | true => exact ⟨_, issue_busy i f hb, .refused hi hb⟩

/-- Every command completes, with one of the six outcomes. -/
theorem exec_outcome (i : Instr) (s : State) : ∃ t, exec i s = .next t ∧ CommandOutcome i s t := by
  cases i
  case nop => exact ⟨s, exec_nop s, .nop rfl⟩
  case split | trunc | merge | extract | decblk =>
    exact issue_outcome (by decide) fun hb => .single hb (by decide) _
  case combine =>
    rw [exec_combine]
    refine issue_outcome (by decide) fun hb => ?_
    cases hd : operandGroupsInDomain s with
    | false => simpa [hd] using .outOfRange hb rfl hd
    | true => simpa [hd] using .single hb (by decide) _
  case encblk => exact issue_outcome (by decide) fun hb => .block hb rfl _
  case encode => exact issue_outcome (by decide) fun hb => .accepted hb (.inl rfl) _ _ _ _ _ (outDimsFit_encode _ _)
  case decode => exact issue_outcome (by decide) fun hb => .accepted hb (.inr rfl) _ _ _ _ _ (outDimsFit_decode _ _)

/-- What a command answered is one of the six outcomes. -/
theorem CommandOutcome.of_exec {i : Instr} {s t : State} (h : exec i s = .next t) : CommandOutcome i s t := by
  obtain ⟨u, hu, ho⟩ := exec_outcome i s
  cases h.symm.trans hu
  exact ho

/-! ### Frames -/

/-- The three stores hold the same pixels written. -/
def StoresSame (s t : State) : Prop := t.ga = s.ga ∧ t.gb = s.gb ∧ t.go = s.go

theorem StoresSame.pixelsSame {s t : State} (h : StoresSame s t) : PixelsSame s t := fun sp x y =>
  pixel_congr sp x y h.1 h.2.1 h.2.2

/-- What every command leaves unchanged. -/
structure CommandFrame (s t : State) : Prop where
  op : OpSame s t
  ctrl : CtrlSame s t
  inDims : InDimsSame s t
  outside : OutsideSame s t
  stores : StoresSame s t

/-- What recording an error leaves unchanged besides (R253). -/
structure RecordFrame (s t : State) : Prop extends CommandFrame s t where
  res : ResSame s t
  run : RunFlagsSame s t
  latch : LatchSame s t
  cur : CurSame s t

theorem CommandFrame.refl (s : State) : CommandFrame s s :=
  ⟨⟨rfl, rfl, rfl, rfl⟩, ⟨rfl, rfl⟩, ⟨rfl, rfl, rfl, rfl⟩, ⟨rfl, rfl, rfl, rfl⟩, ⟨rfl, rfl, rfl⟩⟩

theorem RecordFrame.refl (s : State) : RecordFrame s s :=
  ⟨.refl s, ⟨rfl, rfl, rfl, rfl⟩, ⟨rfl, rfl⟩, ⟨rfl, rfl, rfl, rfl, rfl⟩, ⟨rfl, rfl⟩⟩

theorem raise_frame (c : Cause) (v : Word) (s : State) : RecordFrame s (raise c v s) := by
  obtain ⟨_, h⟩ | ⟨_, h⟩ := raise_cases c v s
  · exact h.symm ▸ { RecordFrame.refl s with }
  · exact h.symm ▸ .refl s

/-- The acceptance of a grid command leaves the result registers and the error record too (R173, R203). -/
theorem accept_frame (m : Mode) (dw dh : Dim) (ow oh : ODim) (s : State) :
    CommandFrame s (accept m dw dh ow oh s) ∧ ResSame s (accept m dw dh ow oh s) ∧
      ErrSame s (accept m dw dh ow oh s) := by
  by_cases h : dw = 0#16 ∨ dh = 0#16
  · rw [accept_empty m ow oh s h]
    exact ⟨{ CommandFrame.refl s with }, ⟨rfl, rfl, rfl, rfl⟩, ⟨rfl, rfl, rfl⟩⟩
  · rw [accept_start m ow oh s h]
    exact ⟨{ CommandFrame.refl s with }, ⟨rfl, rfl, rfl, rfl⟩, ⟨rfl, rfl, rfl⟩⟩

namespace CommandOutcome
variable {i : Instr} {s t : State}

theorem frame (h : CommandOutcome i s t) : CommandFrame s t := by
  cases h with
  | nop => exact .refl s
  | refused | outOfRange => exact (raise_frame _ _ s).toCommandFrame
  | single | block => exact { CommandFrame.refl s with }
  | accepted => exact (accept_frame _ _ _ _ _ s).1

/-- A command that finds the engine running can only record an error. -/
theorem frame_busy (h : CommandOutcome i s t) (hb : s.busy = true) : RecordFrame s t := by
  cases h with
  | nop => exact .refl s
  | refused => exact raise_frame _ _ s
  | single hb' | block hb' | outOfRange hb' | accepted hb' => exact absurd hb (by simp [hb'])

/-- NOP and the scalar commands leave the grid command that runs or ran last (R234). -/
theorem grid_state_scalar (h : CommandOutcome i s t) (he : i ≠ .encode) (hd : i ≠ .decode) :
    RunFlagsSame s t ∧ LatchSame s t ∧ CurSame s t := by
  cases h with
  | nop | single | block => exact ⟨⟨rfl, rfl⟩, ⟨rfl, rfl, rfl, rfl, rfl⟩, ⟨rfl, rfl⟩⟩
  | refused | outOfRange => exact ⟨(raise_frame _ _ s).run, (raise_frame _ _ s).latch, (raise_frame _ _ s).cur⟩
  | accepted _ hi => exact (hi.elim he hd).elim

/-- A result and the error record never change together: a refused command writes no RES register (R253). -/
theorem res_or_err (h : CommandOutcome i s t) : ResSame s t ∨ ErrSame s t := by
  cases h with
  | nop | single | block => exact .inr ⟨rfl, rfl, rfl⟩
  | refused | outOfRange => exact .inl (raise_frame _ _ s).res
  | accepted => exact .inr (accept_frame _ _ _ _ _ s).2.2

/-- Only ENCBLK writes RES1 to RES3. -/
theorem upper_res (h : CommandOutcome i s t) (hi : i ≠ .encblk) :
    t.res1 = s.res1 ∧ t.res2 = s.res2 ∧ t.res3 = s.res3 := by
  cases h with
  | nop | single => exact ⟨rfl, rfl, rfl⟩
  | refused | outOfRange => exact (raise_frame _ _ s).res.2
  | accepted => exact (accept_frame _ _ _ _ _ s).2.1.2
  | block _ hi' => exact absurd hi' hi

/-- A grid command writes no RES register (R173, R203). -/
theorem res_grid (h : CommandOutcome i s t) (hi : i = .encode ∨ i = .decode) : ResSame s t := by
  cases h with
  | nop => exact ⟨rfl, rfl, rfl, rfl⟩
  | refused | outOfRange => exact (raise_frame _ _ s).res
  | accepted => exact (accept_frame _ _ _ _ _ s).2.1
  | single _ hi' | block _ hi' => rcases hi with rfl | rfl <;> simp at hi'

/-- A command that finds the engine at rest leaves the error record, unless it is a COMBINE out of range. -/
theorem err_idle (h : CommandOutcome i s t) (hb : s.busy = false)
    (hi : i ≠ .combine ∨ operandGroupsInDomain s = true) : ErrSame s t := by
  cases h with
  | nop | single | block => exact ⟨rfl, rfl, rfl⟩
  | refused _ hb' => exact absurd hb' (by simp [hb])
  | outOfRange _ hi' hd => exact absurd hi (by simp [hi', hd])
  | accepted => exact (accept_frame _ _ _ _ _ s).2.2

end CommandOutcome

/-- A lane of a masked word is the masked lane. -/
theorem lane_and (k : Nat) (v w : Word) : lane k (v &&& w) = lane k v &&& lane k w :=
  BitVec.extractLsb'_and

/-- COMBINE's domain check as one mask of OP0 (R142). -/
theorem operandGroupsInDomain_of_mask {s : State} (h : s.op0 &&& 0xFCFCFCFC#32 = 0#32) :
    operandGroupsInDomain s = true := by
  have mask_lane (k : Nat) : lane k s.op0 &&& lane k 0xFCFCFCFC#32 = 0#8 := by
    rw [← lane_and, h]
    exact BitVec.extractLsb'_zero
  have h0 : lane 0 s.op0 &&& 0xFC#8 = 0#8 := mask_lane 0
  have h1 : lane 1 s.op0 &&& 0xFC#8 = 0#8 := mask_lane 1
  have h2 : lane 2 s.op0 &&& 0xFC#8 = 0#8 := mask_lane 2
  have h3 : lane 3 s.op0 &&& 0xFC#8 = 0#8 := mask_lane 3
  simp [operandGroupsInDomain, h0, h1, h2, h3]

/-- Settles O24, from the outcomes of a command that is no grid command. -/
theorem scalarCommandFrame : Obligations.ScalarCommandFrame := by
  intro i s he hd
  obtain ⟨t, ht, ho⟩ := exec_outcome i s
  have hf := ho.frame
  obtain ⟨hrun, hlatch, hcur⟩ := ho.grid_state_scalar he hd
  refine ⟨t, ht, hf.op, hrun, hf.ctrl, hf.inDims, hlatch, hcur, hf.outside, hf.stores.pixelsSame,
    ho.upper_res, ?_, fun hb hi => ho.err_idle hb (.inl hi),
    fun hb hmask => ho.err_idle hb (.inr (operandGroupsInDomain_of_mask hmask)), ho.res_or_err.imp_left And.left⟩
  rintro (hb | rfl)
  · exact (ho.frame_busy hb).res
  · cases ht
    exact (RecordFrame.refl s).res

/-- Settles O25, from the outcomes of a grid command. -/
theorem gridCommandFrame : Obligations.GridCommandFrame := by
  intro i s hi
  obtain ⟨t, ht, ho⟩ := exec_outcome i s
  have hf := ho.frame
  have hcombine : i ≠ .combine := by rintro rfl; simp at hi
  exact ⟨t, ht, hf.op, ho.res_grid hi, hf.ctrl, hf.inDims, hf.outside, hf.stores.pixelsSame,
    fun hb => ho.err_idle hb (.inl hcombine),
    fun hb => have hr := ho.frame_busy hb; ⟨hr.run, hr.latch, hr.cur⟩⟩

end Sys2Proof.Machine
end

section
/-! The register port: what each register number reads, what a write to it does and leaves unchanged, and
what the port answers after reset (10_state.md R23 to R37, R41). -/

namespace Sys2Proof.Machine

/-! ### Writes -/

/-- `StatusWrite` of R28, field by field. -/
theorem statusWrite_eq (v : Word) (s : State) : statusWrite v s = { s with
    done := s.done && !v.getLsbD 1, err := s.err && !v.getLsbD 2,
    cause := if v.getLsbD 2 then .none else s.cause } := by
  unfold statusWrite
  generalize v.getLsbD 1 = clrDone, v.getLsbD 2 = clrErr
  cases clrDone <;> cases clrErr <;> simp <;> rfl

/-- `HostReg.number` undoes the register map (R23). -/
theorem number_of_ofNumber {n : RegNum} {r : HostReg} (h : HostReg.ofNumber n = some r) : r.number = n := by
  cases r <;> decide +revert

/-- The registers above B_H, the operands apart, are read-only (R35). -/
theorem writeData_readOnly {r : HostReg} (h7 : 0x07 ≤ r.number.toNat)
    (hop : ¬ (0x10 ≤ r.number.toNat ∧ r.number.toNat ≤ 0x13)) (v : Word) (s : State) :
    r.writeData v s = s := by
  cases r
  case status | ctrl | aW | aH | bW | bH => exact absurd h7 (by decide)
  case op0 | op1 | op2 | op3 => exact absurd (by decide) hop
  all_goals rfl

/-- A write to a read-only or a reserved number has no effect (R35). -/
theorem regWrite_ignored {n : RegNum} (h7 : 0x07 ≤ n.toNat) (hop : ¬ (0x10 ≤ n.toNat ∧ n.toNat ≤ 0x13))
    (v : Word) (s : State) : regWrite n v s = .next s := by
  obtain ⟨hn, _⟩ | ⟨hn, _⟩ | ⟨r, _, hn, hw⟩ | ⟨_, hw⟩ := regWrite_cases n v s
  case inl | inr.inl => exact absurd (number_of_ofNumber hn ▸ h7) (by decide)
  case inr.inr.inl =>
    obtain rfl := number_of_ofNumber hn
    rw [hw, writeData_readOnly h7 hop]
  case inr.inr.inr => exact hw

/-- What a write to a register other than CMD leaves unchanged (R25, R28, R29). -/
structure DataWriteFrame (s t : State) : Prop where
  res : ResSame s t
  latch : LatchSame s t
  cur : CurSame s t
  outside : OutsideSame s t
  stores : StoresSame s t
  busy : t.busy = s.busy
  errCmd : t.errCmd = s.errCmd

theorem DataWriteFrame.refl (s : State) : DataWriteFrame s s :=
  ⟨⟨rfl, rfl, rfl, rfl⟩, ⟨rfl, rfl, rfl, rfl, rfl⟩, ⟨rfl, rfl⟩, ⟨rfl, rfl, rfl, rfl⟩, ⟨rfl, rfl, rfl⟩, rfl, rfl⟩

theorem writeData_frame (r : HostReg) (v : Word) (s : State) : DataWriteFrame s (r.writeData v s) := by
  cases r
  case status =>
    rw [HostReg.writeData, statusWrite_eq]
    exact { DataWriteFrame.refl s with }
  all_goals exact { DataWriteFrame.refl s with }

/-- Everything a host write can do: nothing, a command, an error record, or the write of a data register. -/
theorem hostWrite_cases {n : RegNum} {v : Word} {s t : State} (h : hostWrite n v s = .next t) :
    t = s ∨ (s.rst = false ∧ n = 0x00#5 ∧ ∃ i, CommandOutcome i s t) ∨
    (s.rst = false ∧ n = 0x00#5 ∧ (∃ w, decode v = .illegal w) ∧ t = raise .illegalCmd v s) ∨
    (s.rst = false ∧ n ≠ 0x00#5 ∧ ∃ r : HostReg, t = r.writeData v s) := by
  cases hr : s.rst with
  | true =>
    cases (hostWrite_held n v hr).symm.trans h
    exact .inl rfl
  | false =>
    rw [hostWrite_released n v hr] at h
    obtain ⟨hn, i, _, hw⟩ | ⟨hn, hd, hw⟩ | ⟨r, hcmd, hn, hw⟩ | ⟨_, hw⟩ := regWrite_cases n v s
    · exact .inr (.inl ⟨rfl, (number_of_ofNumber hn).symm, i, .of_exec (hw.symm.trans h)⟩)
    · cases hw.symm.trans h
      exact .inr (.inr (.inl ⟨rfl, (number_of_ofNumber hn).symm, hd, rfl⟩))
    · cases hw.symm.trans h
      refine .inr (.inr (.inr ⟨rfl, ?_, r, rfl⟩))
      rintro rfl
      exact hcmd (Option.some.inj hn).symm
    · cases hw.symm.trans h
      exact .inl rfl

/-! ### The running command and the input dimensions (R25) -/

/-- Write all four input dimensions. -/
@[simps] def State.setInDims (aW aH bW bH : Dim) (s : State) : State :=
  { s with aW := aW, aH := aH, bW := bW, bH := bH }

theorem engineWrites_setInDims (aW aH bW bH : Dim) (s : State) :
    engineWrites (s.setInDims aW aH bW bH) = engineWrites s := by
  cases h : s.mode <;> simp only [engineWrites, State.setInDims_mode, h] <;> rfl

theorem advance_setInDims (aW aH bW bH : Dim) (s : State) :
    advance (s.setInDims aW aH bW bH) = (advance s).setInDims aW aH bW bH := by
  obtain ⟨hi, h⟩ | ⟨hi, hj, h⟩ | ⟨hi, hj, h⟩ := advance_cases s <;> rw [h]
  · exact if_pos hi
  · exact (if_neg hi).trans (if_pos hj)
  · exact (if_neg hi).trans (if_neg hj)

/-- The engine works from what the command latched, never from the input dimensions (R32). -/
theorem engineTurn_setInDims (aW aH bW bH : Dim) (s : State) :
    engineTurn (s.setInDims aW aH bW bH) = (engineTurn s).setInDims aW aH bW bH := by
  cases hb : s.busy with
  | false => rw [engineTurn_idle hb, engineTurn_idle (s := s.setInDims aW aH bW bH) hb]
  | true =>
    rw [engineTurn_busy hb, engineTurn_busy (s := s.setInDims aW aH bW bH) hb, engineStep, engineWrites_setInDims]
    exact advance_setInDims aW aH bW bH (s.setGo (Grid.putAll (engineWrites s) s.go))

/-- Settles O34, from the writes of each register and the engine's independence of the input dimensions. -/
theorem registerWrites : Obligations.RegisterWrites := by
  refine ⟨fun s n v h7 hop => regWrite_ignored h7 hop v s, fun s v => ?_,
    fun s aW aH bW bH => engineTurn_setInDims aW aH bW bH s⟩
  have low16 : v.setWidth 16 = v.extractLsb' 0 16 := BitVec.setWidth_eq_extractLsb' (by decide)
  rw [← low16]
  exact ⟨congrArg _ (statusWrite_eq v s), rfl, rfl, rfl, rfl, rfl, rfl, rfl, rfl, rfl, rfl⟩

/-- Settles O36, from what a host write can do. -/
theorem hostWriteFrame : Obligations.HostWriteFrame := by
  intro s t n v h
  obtain rfl | ⟨_, rfl, i, ho⟩ | ⟨_, rfl, _, rfl⟩ | ⟨_, hn, r, rfl⟩ := hostWrite_cases h
  · have hf := RecordFrame.refl t
    exact ⟨hf.stores.pixelsSame, hf.outside, fun _ => ⟨hf.res, hf.latch, hf.cur, rfl, rfl⟩,
      fun _ => ⟨hf.op, hf.inDims, hf.ctrl⟩, fun hb => ⟨hb, hf.latch, hf.cur, hf.res⟩⟩
  · have hf := ho.frame
    refine ⟨hf.stores.pixelsSame, hf.outside, fun h0 => absurd rfl h0,
      fun _ => ⟨hf.op, hf.inDims, hf.ctrl⟩, fun hb => ?_⟩
    have hbf := ho.frame_busy hb
    exact ⟨hbf.run.1.trans hb, hbf.latch, hbf.cur, hbf.res⟩
  · have hf := raise_frame .illegalCmd v s
    exact ⟨hf.stores.pixelsSame, hf.outside, fun h0 => absurd rfl h0,
      fun _ => ⟨hf.op, hf.inDims, hf.ctrl⟩, fun hb => ⟨hf.run.1.trans hb, hf.latch, hf.cur, hf.res⟩⟩
  · have hf := writeData_frame r v s
    exact ⟨hf.stores.pixelsSame, hf.outside, fun _ => ⟨hf.res, hf.latch, hf.cur, hf.busy, hf.errCmd⟩,
      fun h0 => absurd h0 hn, fun hb => ⟨hf.busy.trans hb, hf.latch, hf.cur, hf.res⟩⟩

/-! ### The interrupt line -/

theorem irq_iff (s : State) :
    irq s = true ↔ (s.done = true ∧ s.doneIe = true) ∨ (s.err = true ∧ s.errIe = true) := by
  simp [irq]

/-- Settles O32, from the formula of R37 and the writes of STATUS and CTRL. -/
theorem interruptLine : Obligations.InterruptLine := by
  refine fun s => ⟨irq_iff s, ⟨s.clearDone.clearErr, rfl, ?_, rfl, rfl⟩,
    ⟨s.setCtrl false false, rfl, ?_, rfl, rfl⟩, ⟨s.setCtrl true true, rfl, ?_⟩⟩
  · simp [irq]
  · simp [irq]
  · simp [irq_iff]

/-! ### Reads -/

/-- The list of moves is not seen by a read. -/
theorem regRead_setInputs (n : RegNum) (ms : List Move) (s : State) :
    regRead n (s.setInputs ms) = regRead n s := by
  unfold regRead
  cases HostReg.ofNumber n with
  | none => rfl
  | some r => cases r <;> rfl

/-- A flag as the bit read. -/
theorem ofBool_eq_ite (b : Bool) : BitVec.ofBool b = if b then 1#1 else 0#1 := by
  cases b <;> rfl

theorem mode_bit (m : Mode) : BitVec.ofBool m.bit = if m = .decode then 1#1 else 0#1 := by
  cases m <;> rfl

/-- A 16-bit register as read: zeros above it. -/
theorem dim_read (d : Dim) : d.setWidth 32 = 0#16 ++ d := by
  simpa using BitVec.setWidth_eq_append (x := d) (w := 32) (by decide)

/-- A 17-bit register as read. -/
theorem odim_read (d : ODim) : d.setWidth 32 = 0#15 ++ d := by
  simpa using BitVec.setWidth_eq_append (x := d) (w := 32) (by decide)

/-- STATUS as read, bit by bit (R27). -/
theorem statusWord_bits (s : State) : statusWord s = 0#24 ++ s.cause.code ++
    (if s.mode = .decode then 1#1 else 0#1) ++ (if s.err then 1#1 else 0#1) ++
    (if s.done then 1#1 else 0#1) ++ (if s.busy then 1#1 else 0#1) := by
  rw [statusWord, mode_bit, ofBool_eq_ite, ofBool_eq_ite, ofBool_eq_ite]

/-- CTRL as read, bit by bit (R29). -/
theorem ctrlWord_bits (s : State) :
    ctrlWord s = 0#30 ++ (if s.errIe then 1#1 else 0#1) ++ (if s.doneIe then 1#1 else 0#1) := by
  rw [ctrlWord, ofBool_eq_ite, ofBool_eq_ite]

/-- Settles O33, from the contents of each register. -/
theorem registerReads : Obligations.RegisterReads := by
  refine ⟨fun s n rest hs => ?_, fun s => ?_⟩
  · rw [step_move hs]
    exact congrArg (fun v => Host.Outcome.next ((s.setInputs rest).setRd v)) (regRead_setInputs n rest s)
  · exact ⟨rfl, statusWord_bits s, ctrlWord_bits s, dim_read _, dim_read _, dim_read _, dim_read _, odim_read _,
      odim_read _, dim_read _, dim_read _, dim_read _, dim_read _, rfl, rfl, rfl, rfl, rfl, rfl, rfl, rfl, rfl⟩

/-- The numbers R23 gives no register. -/
theorem ofNumber_reserved {n : RegNum} (h : n = 0x0E#5 ∨ n = 0x0F#5 ∨ 0x18 ≤ n.toNat) :
    HostReg.ofNumber n = none := by
  decide +revert

/-- Settles O35, from the register map and the writes that have no effect. -/
theorem reservedNumbersIgnored : Obligations.ReservedNumbersIgnored := by
  refine fun s n v => ⟨fun hn => ⟨?_, ?_⟩, fun hn => regWrite_ignored (by omega) (by omega) v s⟩
  · simp [regRead, ofNumber_reserved hn]
  · simp [regWrite, ofNumber_reserved hn]

/-! ### After reset (R41) -/

theorem statusWord_cleared (b : Bool) (s : State) : statusWord (s.clearRegs.setRst b) = 0#32 := by
  simp [statusWord, Cause.code, Mode.bit]

theorem ctrlWord_cleared (b : Bool) (s : State) : ctrlWord (s.clearRegs.setRst b) = 0#32 := by
  simp [ctrlWord]

/-- With the registers cleared every number reads 0, at either level of `rst`. -/
theorem regRead_cleared (n : RegNum) (b : Bool) (s : State) : regRead n (s.clearRegs.setRst b) = 0#32 := by
  unfold regRead
  cases HostReg.ofNumber n with
  | none => rfl
  | some r =>
    cases r
    case status => exact statusWord_cleared b s
    case ctrl => exact ctrlWord_cleared b s
    all_goals rfl

/-- The reset state is its own cleared form. -/
theorem reset_cleared : State.reset = State.reset.clearRegs.setRst false := rfl

/-- A reset that cuts no engine step short clears the registers and holds the line. -/
theorem assertReset_zero (s : State) : assertReset 0 s = s.clearRegs.setRst true := by
  cases hb : s.busy <;> simp [assertReset, landedWrites, hb] <;> rfl

/-- Settles O46, from the registers' cleared form. -/
theorem resetValues : Obligations.ResetValues :=
  ⟨fun n => reset_cleared ▸ regRead_cleared n false State.reset, rfl, rfl,
    fun s n _ => assertReset_zero s ▸ ⟨regRead_cleared n true s, rfl, rfl, rfl, rfl, rfl⟩⟩

end Sys2Proof.Machine
end

section
/-! The invariant of the machine: each state operation keeps it, so every move and every step does
(10_state.md R27 to R34, 46_host_commands.md R236, 70_reset_and_hazards.md R290, R292). -/

namespace Sys2Proof.Machine

/-- The error record is sound: the clauses `causeIffErr` and `errCmdFits` of `State.Inv` (R27, R34). -/
def ErrorFits (s : State) : Prop :=
  (s.cause = .none ↔ s.err = false) ∧
  (s.cause = .illegalCmd → IllegalWord s.errCmd) ∧
  (s.cause = .cmdWhileBusy → ∃ i, i ≠ Instr.nop ∧ s.errCmd = encode i) ∧
  (s.cause = .operandRange → s.errCmd = encode .combine)

/-- The ten codes below 0xA are commands (R93, R94). -/
theorem ten_le_of_decodeOp_illegal {op : BitVec 4} {why : Illegal} (h : decodeOp op = .illegal why) :
    10 ≤ op.toNat := by
  unfold decodeOp at h
  split at h
  case h_11 =>
    simp only [imp_false] at *
    omega
  all_goals cases h

/-- A word that decodes to no command is illegal in the sense of R94 and R95. -/
theorem illegalWord_of_decode {v : Word} {why : Illegal} (h : decode v = .illegal why) : IllegalWord v := by
  by_cases hz : v.extractLsb' 4 28 = 0#28
  · exact .inr (ten_le_of_decodeOp_illegal (by simpa [decode, zeroFieldOk, hz] using h))
  · exact .inl hz

/-- Cleared registers meet the invariant over any canonical stores, at either level of `rst`. -/
theorem State.inv_clearRegs {s : State} (hga : s.ga.wf (2 ^ Config.DIMW) = true)
    (hgb : s.gb.wf (2 ^ Config.DIMW) = true) (hgo : s.go.wf (2 ^ (Config.DIMW + 1)) = true) (b : Bool) :
    (s.clearRegs.setRst b).Inv where
  gaWf := hga
  gbWf := hgb
  goWf := hgo
  scanInRange := nofun
  notBoth := nofun
  scanAtRest := fun _ => ⟨fun _ => ⟨rfl, rfl⟩, fun hn => absurd rfl hn.1⟩
  causeIffErr := by simp
  errCmdFits := ⟨nofun, nofun, nofun⟩
  outDims := ⟨fun _ => ⟨rfl, rfl⟩, nofun⟩
  heldInReset := fun _ => rfl

/-- Settles O48: the reset state has cleared registers and canonical stores. -/
theorem resetMeetsInvariant : Obligations.ResetMeetsInvariant :=
  have ⟨hga, hgb, _⟩ := reset_grids_wf (2 ^ Config.DIMW)
  have ⟨_, _, hgo⟩ := reset_grids_wf (2 ^ (Config.DIMW + 1))
  State.inv_clearRegs hga hgb hgo false

namespace State.Inv
variable {s t : State}

theorem errorFits (h : s.Inv) : ErrorFits s := ⟨h.causeIffErr, h.errCmdFits⟩

/-- While the engine runs, `rst` is not held: it would have cleared BUSY. -/
theorem released_of_busy (h : s.Inv) (hb : s.busy = true) : s.rst = false := by
  by_contra hr
  have := congrArg State.busy (h.heldInReset (by simpa using hr))
  simp [hb] at this

/-! ### Changes that reach neither the stores nor the grid command -/

/-- With `rst` at 0, a change that leaves the stores, the grid command and BUSY, sets no DONE and keeps the error
record sound keeps the invariant. -/
theorem of_frame (h : s.Inv) (hr : t.rst = false) (hstores : StoresSame s t) (hlatch : LatchSame s t)
    (hcur : CurSame s t) (hbusy : t.busy = s.busy) (hdone : s.done = false → t.done = false)
    (herr : ErrorFits t) : t.Inv := by
  obtain ⟨hga, hgb, hgo⟩ := hstores
  obtain ⟨hmode, how, hoh, hdw, hdh⟩ := hlatch
  obtain ⟨hi, hj⟩ := hcur
  exact {
    gaWf := hga ▸ h.gaWf
    gbWf := hgb ▸ h.gbWf
    goWf := hgo ▸ h.goWf
    scanInRange := by rw [hbusy, hi, hj, hdw, hdh]; exact h.scanInRange
    notBoth := fun hb => hdone (h.notBoth (hbusy ▸ hb))
    scanAtRest := by rw [hbusy, hi, hj, hdw, hdh]; exact h.scanAtRest
    causeIffErr := herr.1
    errCmdFits := herr.2
    outDims := by rw [hmode, how, hoh, hdw, hdh]; exact h.outDims
    heldInReset := by simp [hr] }

/-- Recording an error keeps the invariant if the word written is one that raises the cause (R251, R253). -/
theorem raise (h : s.Inv) (hr : s.rst = false) {c : Cause} {v : Word} (hfit : ErrorFits (s.record c v)) :
    (raise c v s).Inv := by
  have hf := raise_frame c v s
  refine h.of_frame (hf.outside.1.trans hr) hf.stores hf.latch hf.cur hf.run.1 (hf.run.2.trans ·) ?_
  obtain ⟨_, hc⟩ | ⟨_, hc⟩ := raise_cases c v s
  · exact hc.symm ▸ hfit
  · exact hc.symm ▸ h.errorFits

/-- Clearing ERR clears CAUSE, so a write to STATUS keeps the record sound (R28). -/
theorem errorFits_writeData (h : s.Inv) (r : HostReg) (v : Word) : ErrorFits (r.writeData v s) := by
  cases r
  case status =>
    rw [HostReg.writeData, statusWrite_eq]
    cases hclr : v.getLsbD 2 with
    | false => simpa [ErrorFits] using h.errorFits
    | true => simp [ErrorFits]
  all_goals exact h.errorFits

theorem writeData_done (r : HostReg) (v : Word) (hd : s.done = false) : (r.writeData v s).done = false := by
  cases r
  case status => simp [HostReg.writeData, statusWrite_eq, hd]
  all_goals exact hd

theorem writeData (h : s.Inv) (hr : s.rst = false) (r : HostReg) (v : Word) : (r.writeData v s).Inv := by
  have hf := writeData_frame r v s
  exact h.of_frame (hf.outside.1.trans hr) hf.stores hf.latch hf.cur hf.busy (writeData_done r v)
    (h.errorFits_writeData r v)

/-! ### Commands -/

/-- Acceptance starts the scan at (0, 0) of a region that has pixels, and ends it there for an empty one. -/
theorem accept (h : s.Inv) (hr : s.rst = false) (hb : s.busy = false) {m : Mode} {dw dh : Dim} {ow oh : ODim}
    (hfit : OutDimsFit m dw dh ow oh) : (accept m dw dh ow oh s).Inv := by
  by_cases hz : dw = 0#16 ∨ dh = 0#16
  · rw [accept_empty m ow oh s hz]
    have hz' : dw.toNat = 0 ∨ dh.toNat = 0 := hz.imp (by simp [·]) (by simp [·])
    exact { h with
      scanInRange := by simp [hb]
      notBoth := by simp [hb]
      scanAtRest := fun _ => ⟨fun _ => ⟨rfl, rfl⟩, fun hn => absurd hz' (by simpa using hn)⟩
      outDims := hfit
      heldInReset := by simp [hr] }
  · rw [accept_start m ow oh s hz]
    have hpos : 0 < dw.toNat ∧ 0 < dh.toNat := by
      simp only [← BitVec.toNat_inj, BitVec.toNat_zero] at hz
      omega
    exact { h with
      scanInRange := fun _ => hpos
      notBoth := fun _ => rfl
      scanAtRest := nofun
      outDims := hfit
      heldInReset := by simp [hr] }

theorem command (h : s.Inv) (hr : s.rst = false) {i : Instr} (ho : CommandOutcome i s t) : t.Inv := by
  cases ho with
  | nop => exact h
  | refused hi => exact h.raise hr ⟨by simp, nofun, fun _ => ⟨i, hi, rfl⟩, nofun⟩
  | outOfRange => exact h.raise hr ⟨by simp, nofun, nofun, fun _ => rfl⟩
  | single | block =>
    exact h.of_frame hr ⟨rfl, rfl, rfl⟩ ⟨rfl, rfl, rfl, rfl, rfl⟩ ⟨rfl, rfl⟩ rfl id h.errorFits
  | accepted hb _ m dw dh ow oh hfit => exact h.accept hr hb hfit

/-- A host write keeps the invariant, whatever the register, the word and the level of `rst`. -/
theorem hostWrite (h : s.Inv) {n : RegNum} {v : Word} (ht : hostWrite n v s = .next t) : t.Inv := by
  obtain rfl | ⟨hr, _, i, ho⟩ | ⟨hr, _, ⟨w, hw⟩, rfl⟩ | ⟨hr, _, r, rfl⟩ := hostWrite_cases ht
  · exact h
  · exact h.command hr ho
  · exact h.raise hr ⟨by simp, fun _ => illegalWord_of_decode hw, nofun, nofun⟩
  · exact h.writeData hr r v

/-! ### The stores and the model's own fields: these may change while `rst` is held -/

theorem setInputs (h : s.Inv) (ms : List Move) : (s.setInputs ms).Inv :=
  { h with heldInReset := fun hr => congrArg (State.setInputs ms) (h.heldInReset hr) }

theorem setRd (h : s.Inv) (v : Word) : (s.setRd v).Inv :=
  { h with heldInReset := fun hr => congrArg (State.setRd v) (h.heldInReset hr) }

theorem setGp (h : s.Inv) (p : Pixel) : (s.setGp p).Inv :=
  { h with heldInReset := fun hr => congrArg (State.setGp p) (h.heldInReset hr) }

theorem setGa (h : s.Inv) {g : Grid} (hg : g.wf (2 ^ Config.DIMW) = true) : (s.setGa g).Inv :=
  { h with gaWf := hg, heldInReset := fun hr => congrArg (State.setGa g) (h.heldInReset hr) }

theorem setGb (h : s.Inv) {g : Grid} (hg : g.wf (2 ^ Config.DIMW) = true) : (s.setGb g).Inv :=
  { h with gbWf := hg, heldInReset := fun hr => congrArg (State.setGb g) (h.heldInReset hr) }

theorem setGo (h : s.Inv) {g : Grid} (hg : g.wf (2 ^ (Config.DIMW + 1)) = true) : (s.setGo g).Inv :=
  { h with goWf := hg, heldInReset := fun hr => congrArg (State.setGo g) (h.heldInReset hr) }

/-! ### The engine and the reset line -/

/-- The advance goes to the next data coordinate, or stops at the last (R236). -/
theorem advance (h : s.Inv) (hb : s.busy = true) : (advance s).Inv := by
  have hr := h.released_of_busy hb
  obtain ⟨hci, hcj⟩ := h.scanInRange hb
  have hwi := s.dataW.isLt
  have hwj := s.dataH.isLt
  obtain ⟨hi, ha⟩ | ⟨hi, hj, ha⟩ | ⟨hi, hj, ha⟩ := advance_cases s <;> rw [ha]
  · have hnext : (s.curI + 1#16).toNat = s.curI.toNat + 1 := BitVec.toNat_add_of_lt (hi.trans hwi)
    exact { h with
      scanInRange := fun _ => ⟨hnext ▸ hi, hcj⟩
      scanAtRest := by simp [hb]
      heldInReset := by simp [hr] }
  · have hnext : (s.curJ + 1#16).toNat = s.curJ.toNat + 1 := BitVec.toNat_add_of_lt (hj.trans hwj)
    exact { h with
      scanInRange := fun _ => ⟨(Nat.zero_le _).trans_lt hci, hnext ▸ hj⟩
      scanAtRest := by simp [hb]
      heldInReset := by simp [hr] }
  · have hlast : s.curI.toNat + 1 = s.dataW.toNat ∧ s.curJ.toNat + 1 = s.dataH.toNat := by omega
    have hregion : ¬ (s.dataW.toNat = 0 ∨ s.dataH.toNat = 0) := by omega
    exact { h with
      scanInRange := nofun
      notBoth := nofun
      scanAtRest := fun _ => ⟨fun hempty => absurd hempty hregion, fun _ => hlast⟩
      heldInReset := by simp [hr] }

end State.Inv

/-- Every write of an engine step lies in the coordinate range of GO (R60, R64). -/
theorem engineWrites_inRange {s : State} {w : Cell} (hw : w ∈ engineWrites s) :
    w.x < 2 ^ (Config.DIMW + 1) ∧ w.y < 2 ^ (Config.DIMW + 1) := by
  have hi := s.curI.isLt
  have hj := s.curJ.isLt
  simp only [Config.DIMW]
  cases hm : s.mode with
  | encode =>
    have := encodeWrites_spots (engineWrites_encode hm ▸ hw)
    omega
  | decode =>
    have := decodeWrites_spots (engineWrites_decode hm ▸ hw)
    omega

/-- So does every write that landed before a reset (R292). -/
theorem landedWrites_inRange {landed : Nat} {s : State} {w : Cell} (hw : w ∈ landedWrites landed s) :
    w.x < 2 ^ (Config.DIMW + 1) ∧ w.y < 2 ^ (Config.DIMW + 1) := by
  cases hb : s.busy <;> simp only [landedWrites, hb] at hw
  · simp at hw
  · exact engineWrites_inRange (List.mem_of_mem_take hw)

namespace State.Inv
variable {s t : State}

theorem engineTurn (h : s.Inv) : (engineTurn s).Inv := by
  cases hb : s.busy with
  | false => exact (engineTurn_idle hb).symm ▸ h
  | true =>
    rw [engineTurn_busy hb]
    exact (h.setGo (Grid.wf_putAll _ (fun _ => engineWrites_inRange) h.goWf)).advance hb

theorem assertReset (h : s.Inv) (landed : Nat) : (assertReset landed s).Inv :=
  State.inv_clearRegs (s := s.setGo (Grid.putAll (landedWrites landed s) s.go)) h.gaWf h.gbWf
    (Grid.wf_putAll _ (fun _ => landedWrites_inRange) h.goWf) true

theorem releaseReset (h : s.Inv) : (releaseReset s).Inv :=
  { h with heldInReset := nofun }

/-! ### Moves and steps -/

theorem hostWait (h : s.Inv) : (hostWait s).Inv := by
  unfold Machine.hostWait
  split
  · exact (h.setRd _).setInputs _
  · exact h.setRd _

/-- A platform write that keeps the invariant when it happens keeps it as a move. -/
theorem platformWrite {write : State → State} (hw : (write s).Inv) (ht : platformWrite write s = .next t) :
    t.Inv := by
  cases hb : s.busy with
  | false =>
    cases (platformWrite_idle write hb).symm.trans ht
    exact hw
  | true => cases (platformWrite_busy write hb).symm.trans ht

theorem applyMove (h : s.Inv) {m : Move} (ht : applyMove m s = .next t) : t.Inv := by
  cases m
  case write => exact h.hostWrite ht
  case setGA x y p => exact platformWrite (h.setGa (Grid.wf_put x.isLt y.isLt h.gaWf)) ht
  case setGB x y p => exact platformWrite (h.setGb (Grid.wf_put x.isLt y.isLt h.gbWf)) ht
  case setGO x y p => exact platformWrite (h.setGo (Grid.wf_put x.isLt y.isLt h.goWf)) ht
  all_goals cases ht
  case read => exact h.setRd _
  case wait => exact h.hostWait
  case engine => exact h.engineTurn
  case getGO => exact h.setGp _
  case assertReset landed => exact h.assertReset landed
  case releaseReset => exact h.releaseReset

theorem step (h : s.Inv) (ht : step s = .next t) : t.Inv := by
  cases hs : s.inputs with
  | nil =>
    cases (step_quiet hs).symm.trans ht
    exact h.engineTurn
  | cons m rest => exact (h.setInputs rest).applyMove ((step_move hs).symm.trans ht)

end State.Inv

/-- Settles O49, from the preservation of the invariant by each move. -/
theorem stepKeepsInvariant : Obligations.StepKeepsInvariant := fun _ _ => State.Inv.step

end Sys2Proof.Machine
end

section
/-! The canonical form of a grid store determines it (20_memory.md R60, log entry 2). -/

namespace Sys2Proof.Machine

theorem Cell.before_trans {a b c : Cell} (hab : a.before b = true) (hbc : b.before c = true) :
    a.before c = true := by
  rw [Cell.before_iff] at *
  omega

/-- Raster order is total on coordinates. -/
theorem Cell.coords_eq_of_not_before {a b : Cell} (hab : ¬ a.before b = true) (hba : ¬ b.before a = true) :
    a.x = b.x ∧ a.y = b.y := by
  rw [Cell.before_iff] at hab hba
  omega

theorem Grid.find_cons (x y : Nat) (c : Cell) (g : Grid) :
    Grid.find x y (c :: g) = if c.x = x ∧ c.y = y then some c.pix else Grid.find x y g := rfl

theorem Grid.find_head (c : Cell) (g : Grid) : Grid.find c.x c.y (c :: g) = some c.pix :=
  if_pos ⟨rfl, rfl⟩

/-- A store does not list `c` if it is canonical and its first cell comes after `c`; so where it answers as a
store with first cell `c` does, its first cell does not. -/
theorem Grid.head_not_before {lim : Nat} {c d : Cell} {g h : Grid} (hd : Grid.wf lim (d :: h) = true)
    (heq : Grid.find c.x c.y (c :: g) = Grid.find c.x c.y (d :: h)) : ¬ c.before d = true := by
  intro hcd
  obtain ⟨_, _, hall, _⟩ := (Grid.wf_cons lim d h).mp hd
  have habsent : Grid.find c.x c.y (d :: h) = none :=
    Grid.find_none_of_before (List.forall_mem_cons.mpr ⟨hcd, fun e he => Cell.before_trans hcd (hall e he)⟩)
  rw [Grid.find_head, habsent] at heq
  cases heq

/-- The rest of a canonical store lists what the store lists, but for the first coordinate. -/
theorem Grid.find_tail {lim : Nat} {c : Cell} {g : Grid} (h : Grid.wf lim (c :: g) = true) (x y : Nat) :
    Grid.find x y g = if c.x = x ∧ c.y = y then none else Grid.find x y (c :: g) := by
  obtain ⟨_, _, hall, _⟩ := (Grid.wf_cons lim c g).mp h
  split
  case isTrue hc =>
    obtain ⟨rfl, rfl⟩ := hc
    exact Grid.find_none_of_before hall
  case isFalse hc => rw [Grid.find_cons, if_neg hc]

/-- Settles O45, by induction on the two stores: their first cells agree, and so do the rests. -/
theorem canonicalStoresEqual : Obligations.CanonicalStoresEqual := by
  intro lim g
  induction g with
  | nil =>
    rintro (_ | ⟨d, h⟩) _ _ heq
    · rfl
    · cases (heq d.x d.y).trans (Grid.find_head d h)
  | cons c g ih =>
    rintro (_ | ⟨d, h⟩) hg hh heq
    · cases (Grid.find_head c g).symm.trans (heq c.x c.y)
    · obtain ⟨hx, hy⟩ := Cell.coords_eq_of_not_before (Grid.head_not_before hh (heq c.x c.y))
        (Grid.head_not_before hg (heq d.x d.y).symm)
      have hpix : c.pix = d.pix := by
        have := heq c.x c.y
        rw [Grid.find_head, Grid.find_cons, if_pos ⟨hx.symm, hy.symm⟩] at this
        exact Option.some.inj this
      have hhead : c = d := Cell.mk.injEq .. ▸ ⟨hx, hy, hpix⟩
      have htail : g = h := by
        obtain ⟨_, _, _, hg'⟩ := (Grid.wf_cons lim c g).mp hg
        obtain ⟨_, _, _, hh'⟩ := (Grid.wf_cons lim d h).mp hh
        refine ih h hg' hh' fun x y => ?_
        rw [Grid.find_tail hg, Grid.find_tail hh, heq, hx, hy]
      rw [hhead, htail]

end Sys2Proof.Machine
end

section
/-! What a step reads and writes of the grid spaces: GA and GB are only read, GO is only written, and both
inside the regions of the running command (20_memory.md R64, R68, R77). -/

namespace Sys2Proof.Machine

/-! ### The engine's step, registers and stores apart -/

/-- Replace all three stores. -/
@[simps] def State.setStores (ga gb go : Grid) (s : State) : State := { s with ga := ga, gb := gb, go := go }

/-- The advance does not look at the stores. -/
theorem advance_setStores (ga gb go : Grid) (s : State) :
    advance (s.setStores ga gb go) = (advance s).setStores ga gb go := by
  obtain ⟨hi, h⟩ | ⟨hi, hj, h⟩ | ⟨hi, hj, h⟩ := advance_cases s <;> rw [h]
  · exact if_pos hi
  · exact (if_neg hi).trans (if_pos hj)
  · exact (if_neg hi).trans (if_neg hj)

/-- A step of the engine: its registers are those of the advance, and GO has the writes of the body (R236). -/
theorem engineTurn_eq {s : State} (hb : s.busy = true) :
    engineTurn s = (advance s).setStores s.ga s.gb (Grid.putAll (engineWrites s) s.go) := by
  rw [engineTurn_busy hb]
  exact advance_setStores s.ga s.gb _ s

/-- The same step over other stores, where these answer the engine's reads alike. -/
theorem engineTurn_setStores {s : State} {ga gb go : Grid} (hb : s.busy = true)
    (hw : engineWrites (s.setStores ga gb go) = engineWrites s) :
    engineTurn (s.setStores ga gb go) =
      (engineTurn s).setStores ga gb (Grid.putAll (engineWrites s) go) := by
  rw [engineTurn_eq (s := s.setStores ga gb go) hb, engineTurn_eq hb, hw, advance_setStores]
  rfl

/-! ### What the engine reads -/

/-- The engine has no read path from GO (R68). -/
theorem engineWrites_setGo (s : State) (g : Grid) : engineWrites (s.setGo g) = engineWrites s := rfl

/-- The writes of an ENCODE body follow from the two pixels it reads (R174). -/
theorem encodeWrites_congr {i j : Nat} {s t : State} (ha : t.pixel .ga i j = s.pixel .ga i j)
    (hb : t.pixel .gb i j = s.pixel .gb i j) : encodeWrites i j t = encodeWrites i j s := by
  rw [encodeWrites, encodeWrites, ha, hb]

/-- The write of a DECODE body follows from the four pixels of GA it reads (R204). -/
theorem decodeWrites_congr {i j : Nat} {s t : State}
    (h : ∀ x y, x < 2 * (i + 1) → y < 2 * (j + 1) → t.pixel .ga x y = s.pixel .ga x y) :
    decodeWrites i j t = decodeWrites i j s := by
  rw [decodeWrites, decodeWrites, decodeReads, decodeReads, h (2 * i) (2 * j) (by omega) (by omega),
    h (2 * i + 1) (2 * j) (by omega) (by omega), h (2 * i) (2 * j + 1) (by omega) (by omega),
    h (2 * i + 1) (2 * j + 1) (by omega) (by omega)]

/-- Settles O41: the reads of the body lie in the region, since the scan position does. -/
theorem engineReadsOnlyItsRegion : Obligations.EngineReadsOnlyItsRegion := by
  intro s ga gb hinv hb s' henc hdec
  obtain ⟨hi, hj⟩ := hinv.scanInRange hb
  have hw : engineWrites s' = engineWrites s := by
    cases hm : s.mode with
    | encode =>
      obtain ⟨hga, hgb⟩ := henc hm _ _ hi hj
      rw [engineWrites_encode hm, engineWrites_encode (s := s') hm]
      exact encodeWrites_congr hga hgb
    | decode =>
      rw [engineWrites_decode hm, engineWrites_decode (s := s') hm]
      exact decodeWrites_congr (i := s.curI.toNat) (j := s.curJ.toNat) fun x y hx hy =>
        hdec hm x y (by omega) (by omega)
  refine (engineTurn_setStores (go := s.go) hb hw).trans ?_
  rw [engineTurn_eq hb]
  rfl

/-- The engine's step over another GO differs in GO alone (R68). -/
theorem engineTurn_setGo (s : State) (g : Grid) :
    engineTurn (s.setGo g) = (engineTurn s).setGo (engineTurn (s.setGo g)).go := by
  cases hb : s.busy with
  | false => rw [engineTurn_idle hb, engineTurn_idle (s := s.setGo g) hb]; rfl
  | true =>
    have h := engineTurn_setStores (ga := s.ga) (gb := s.gb) hb (engineWrites_setGo s g)
    change engineTurn (s.setGo g) = _ at h
    rw [h, engineTurn_eq hb]
    rfl

/-! ### What a step writes -/

/-- The state with the first `n` pixel writes of the engine's step done, and nothing else of it (R292). -/
def State.land (n : Nat) (s : State) : State := s.setGo (Grid.putAll (landedWrites n s) s.go)

theorem State.land_zero (s : State) : s.land 0 = s := by
  cases hb : s.busy <;> simp [State.land, landedWrites, hb] <;> rfl

/-- The engine's turn does to the pixels what all of its step's writes do. -/
theorem engineTurn_pixels (s : State) : PixelsSame (s.land (engineWrites s).length) (engineTurn s) := by
  intro sp x y
  cases hb : s.busy with
  | false => rw [engineTurn_idle hb, State.land, landedWrites, hb]; rfl
  | true =>
    rw [engineTurn_eq hb, State.land, landedWrites, if_pos hb, List.take_length]
    exact pixel_congr sp x y rfl rfl rfl

/-- A move that is no platform write changes pixels by writes of the engine's step only, all of them in the
engine's turn, the first few in a reset that cuts it short, and none otherwise. -/
theorem applyMove_pixels {m : Move} {s t : State} (hm : m.isPlatformWrite = false)
    (ht : applyMove m s = .next t) : ∃ n, PixelsSame (s.land n) t := by
  cases m
  case setGA | setGB | setGO => cases hm
  case write n v => exact ⟨0, s.land_zero.symm ▸ (hostWriteFrame s t n v ht).1⟩
  all_goals cases ht
  case engine => exact ⟨_, engineTurn_pixels s⟩
  case assertReset landed => exact ⟨landed, fun sp x y => pixel_congr sp x y rfl rfl rfl⟩
  case wait =>
    refine ⟨0, s.land_zero.symm ▸ fun sp x y => ?_⟩
    unfold hostWait
    split <;> simp [hostRead]
  case read | getGO | releaseReset =>
    exact ⟨0, s.land_zero.symm ▸ fun sp x y => pixel_congr sp x y rfl rfl rfl⟩

/-- A step that is no platform write changes pixels by writes of the engine's step only (R68). -/
theorem step_pixels {s t : State} (ht : step s = .next t)
    (hm : ∀ m rest, s.inputs = m :: rest → m.isPlatformWrite = false) : ∃ n, PixelsSame (s.land n) t := by
  cases hs : s.inputs with
  | nil =>
    cases (step_quiet hs).symm.trans ht
    exact ⟨_, engineTurn_pixels s⟩
  | cons m rest =>
    obtain ⟨n, hn⟩ := applyMove_pixels (hm m rest hs) ((step_move hs).symm.trans ht)
    exact ⟨n, fun sp x y => (hn sp x y).trans (pixel_congr sp x y rfl rfl rfl)⟩

/-- Settles O42, from the pixels a step can change and the engine's independence of GO. -/
theorem inputsReadOnlyOutputWriteOnly : Obligations.InputsReadOnlyOutputWriteOnly := by
  refine ⟨fun s t ht hm x y => ?_, fun s g => ⟨engineTurn_setGo s g, engineWrites_setGo s g⟩⟩
  obtain ⟨n, hn⟩ := step_pixels ht hm
  exact ⟨hn .ga x y, hn .gb x y⟩

/-- Every write of a running engine lies in the output rectangle (R77). -/
theorem State.Inv.engineWrites_inRectangle {s : State} (h : s.Inv) (hb : s.busy = true) {w : Cell}
    (hw : w ∈ engineWrites s) : w.x < s.oW.toNat ∧ w.y < s.oH.toNat := by
  obtain ⟨hi, hj⟩ := h.scanInRange hb
  cases hm : s.mode with
  | encode =>
    have hdims := h.outDims.1 hm
    have := encodeWrites_spots (engineWrites_encode hm ▸ hw)
    omega
  | decode =>
    have hdims := h.outDims.2 hm
    have := decodeWrites_spots (engineWrites_decode hm ▸ hw)
    omega

theorem State.Inv.landedWrites_inRectangle {s : State} (h : s.Inv) {n : Nat} {w : Cell}
    (hw : w ∈ landedWrites n s) : w.x < s.oW.toNat ∧ w.y < s.oH.toNat := by
  cases hb : s.busy <;> simp only [landedWrites, hb] at hw
  · simp at hw
  · exact h.engineWrites_inRectangle hb (List.mem_of_mem_take hw)

/-- Settles O43: a step changes pixels by writes of the engine only, and those lie in the rectangle. -/
theorem outputRectangleOnly : Obligations.OutputRectangleOnly := by
  intro s t hinv ht hm x y hxy
  obtain ⟨n, hn⟩ := step_pixels ht hm
  refine (hn .go x y).trans (pixel_putAll_other (landedWrites n s) fun w hw hspot => ?_)
  have := hinv.landedWrites_inRectangle hw
  omega

end Sys2Proof.Machine
end

section
/-! Progress of a grid command: it starts with the acceptance, an engine step takes it one data coordinate
further, and no other move but a reset touches it (20_memory.md R70, 46_host_commands.md R236). -/

namespace Sys2Proof.Machine

/-! ### What the other moves leave of a running command -/

/-- The grid command in `s` stands in `t` as it stood in `s`. -/
structure RunSame (s t : State) : Prop where
  busy : t.busy = s.busy
  latch : LatchSame s t
  cur : CurSame s t
  pixels : PixelsSame s t

theorem RunSame.refl (s : State) : RunSame s s :=
  ⟨rfl, ⟨rfl, rfl, rfl, rfl, rfl⟩, ⟨rfl, rfl⟩, fun _ _ _ => rfl⟩

theorem RunSame.passed {s t : State} (h : RunSame s t) (i j : Nat) : Passed t i j ↔ Passed s i j := by
  obtain ⟨hb, ⟨_, _, _, hdw, hdh⟩, ⟨hi, hj⟩, _⟩ := h
  rw [Passed, Passed, hb, hdw, hdh, hi, hj]

theorem RunSame.scanInRange {s t : State} (h : RunSame s t)
    (hs : s.curI.toNat < s.dataW.toNat ∧ s.curJ.toNat < s.dataH.toNat) :
    t.curI.toNat < t.dataW.toNat ∧ t.curJ.toNat < t.dataH.toNat := by
  obtain ⟨_, ⟨_, _, _, hdw, hdh⟩, ⟨hi, hj⟩, _⟩ := h
  rwa [hdw, hdh, hi, hj]

/-- A change of the `rst` line, the list of moves or what was read last leaves the grid command. -/
theorem RunSame.of_outside (rst : Bool) (inputs : List Move) (rdData : Word) (gpData : Pixel) (s : State) :
    RunSame s { s with rst := rst, inputs := inputs, rdData := rdData, gpData := gpData } :=
  ⟨rfl, ⟨rfl, rfl, rfl, rfl, rfl⟩, ⟨rfl, rfl⟩, fun sp x y => pixel_congr sp x y rfl rfl rfl⟩

/-- While the engine runs, a move other than a reset is the engine's step or leaves the grid command. -/
theorem applyMove_running {m : Move} {s t : State} (hb : s.busy = true) (hm : m.isReset = false)
    (ht : applyMove m s = .next t) : t = engineTurn s ∨ RunSame s t := by
  cases m
  case assertReset => cases hm
  case setGA | setGB | setGO => cases (platformWrite_busy _ hb).symm.trans ht
  case write n v =>
    obtain ⟨hpix, _, _, _, hrun⟩ := hostWriteFrame s t n v ht
    obtain ⟨htb, hlatch, hcur, _⟩ := hrun hb
    exact .inr ⟨htb.trans hb.symm, hlatch, hcur, hpix⟩
  all_goals cases ht
  case engine => exact .inl rfl
  case wait =>
    rw [hostWait, if_pos hb]
    exact .inr (.of_outside ..)
  case read | getGO | releaseReset => exact .inr (.of_outside ..)

/-- While the engine runs, a step other than a reset takes a move off the list, and then is the engine's step or
leaves the grid command. -/
theorem step_running {s t : State} (hb : s.busy = true) (ht : step s = .next t)
    (hm : ∀ m rest, s.inputs = m :: rest → m.isReset = false) :
    ∃ u, RunSame s u ∧ (t = engineTurn u ∨ RunSame u t) := by
  cases hs : s.inputs with
  | nil =>
    cases (step_quiet hs).symm.trans ht
    exact ⟨s, .refl s, .inl rfl⟩
  | cons m rest =>
    exact ⟨s.setInputs rest, .of_outside .., applyMove_running hb (hm m rest hs) ((step_move hs).symm.trans ht)⟩

/-! ### The registers after an engine step -/

section EngineStep
variable {s : State} (hb : s.busy = true)
include hb

/-- When the advance ends the command it sets DONE (R236). -/
theorem engineTurn_done_of_stopped (hstop : (engineTurn s).busy = false) : (engineTurn s).done = true := by
  rw [engineTurn_eq hb] at hstop ⊢
  obtain ⟨_, h⟩ | ⟨_, _, h⟩ | ⟨_, _, h⟩ := advance_cases s <;> rw [h] at hstop ⊢
  · cases hb.symm.trans hstop
  · cases hb.symm.trans hstop
  · rfl

theorem engineTurn_latch : LatchSame s (engineTurn s) := by
  rw [engineTurn_eq hb]
  obtain ⟨_, h⟩ | ⟨_, _, h⟩ | ⟨_, _, h⟩ := advance_cases s <;> rw [h] <;> exact ⟨rfl, rfl, rfl, rfl, rfl⟩

/-- An engine step passes the data coordinate at the scan position and no other (R236). -/
theorem passed_engineTurn (hscan : s.curI.toNat < s.dataW.toNat ∧ s.curJ.toNat < s.dataH.toNat) (i j : Nat) :
    Passed (engineTurn s) i j ↔ Passed s i j ∨ (i = s.curI.toNat ∧ j = s.curJ.toNat) := by
  have hwi := s.dataW.isLt
  have hwj := s.dataH.isLt
  rw [engineTurn_eq hb]
  obtain ⟨hi, h⟩ | ⟨hi, hj, h⟩ | ⟨hi, hj, h⟩ := advance_cases s <;> rw [h]
  · have hnext : (s.curI + 1#16).toNat = s.curI.toNat + 1 := BitVec.toNat_add_of_lt (hi.trans hwi)
    simp [Passed, hb, hnext]
    omega
  · have hnext : (s.curJ + 1#16).toNat = s.curJ.toNat + 1 := BitVec.toNat_add_of_lt (hj.trans hwj)
    simp [Passed, hb, hnext]
    omega
  · simp [Passed, hb]
    omega

end EngineStep

/-! ### The pixels after an engine step -/

/-- How many output coordinates a data coordinate has on each axis (R179, R204). -/
def Mode.scale (m : Mode) : Nat :=
  match m with
  | .encode => 2
  | .decode => 1

/-- The final pixel of the output coordinate `(x, y)` in the grid command of mode `m`, from the inputs as they
are in `s`: a pixel of its block (R174, R179), or the pixel recovered from a block (R204). -/
def outPixel (m : Mode) (x y : Nat) (s : State) : Pixel :=
  match m with
  | .encode => (encBlock (s.pixel .ga (x / 2) (y / 2)) (s.pixel .gb (x / 2) (y / 2))).get (x % 2 + 2 * (y % 2))
  | .decode => decBlock (decodeReads x y s)

/-- The final pixels follow from the pixels of GA and GB. -/
theorem outPixel_congr {s t : State} (ha : ∀ x y, t.pixel .ga x y = s.pixel .ga x y)
    (hb : ∀ x y, t.pixel .gb x y = s.pixel .gb x y) (m : Mode) (x y : Nat) :
    outPixel m x y t = outPixel m x y s := by
  cases m <;> simp only [outPixel, decodeReads, ha, hb]

/-- An output coordinate of ENCODE from its data coordinate and its block index (R179). -/
theorem coord_of_blockIndex (x y : Nat) :
    2 * (x / 2) + (x % 2 + 2 * (y % 2)) % 2 = x ∧ 2 * (y / 2) + (x % 2 + 2 * (y % 2)) / 2 = y := by
  omega

/-- The block index of an output coordinate of ENCODE (R179). -/
theorem blockIndex_of_coord (i j : Nat) {k : Nat} (hk : k < 4) :
    (2 * i + k % 2) / 2 = i ∧ (2 * j + k / 2) / 2 = j ∧
      (2 * i + k % 2) % 2 + 2 * ((2 * j + k / 2) % 2) = k := by
  omega

/-- An ENCODE body puts block pixel `k` at the coordinate of block index `k` (R174, R179). -/
theorem pixel_encodeWrites (s : State) (i j : Nat) {k : Nat} (hk : k < 4) :
    (s.setGo (Grid.putAll (encodeWrites i j s) s.go)).pixel .go (2 * i + k % 2) (2 * j + k / 2) =
      (encBlock (s.pixel .ga i j) (s.pixel .gb i j)).get k := by
  interval_cases k <;> simp [encodeWrites, pixel_setGo_put, Quad.get]

/-- A DECODE body puts the recovered pixel at its data coordinate (R204). -/
theorem pixel_decodeWrites (s : State) (i j : Nat) :
    (s.setGo (Grid.putAll (decodeWrites i j s) s.go)).pixel .go i j = decBlock (decodeReads i j s) := by
  simp [decodeWrites, pixel_setGo_put]

/-- The body writes only at output coordinates of the scan position. -/
theorem engineWrites_spots {s : State} {w : Cell} (hw : w ∈ engineWrites s) :
    w.x / s.mode.scale = s.curI.toNat ∧ w.y / s.mode.scale = s.curJ.toNat := by
  cases hm : s.mode with
  | encode => exact encodeWrites_spots (engineWrites_encode hm ▸ hw)
  | decode => simpa [Mode.scale] using decodeWrites_spots (engineWrites_decode hm ▸ hw)

section EnginePixels
variable {s : State} (hb : s.busy = true)
include hb

theorem pixel_engineTurn (sp : GridSpace) (x y : Nat) :
    (engineTurn s).pixel sp x y = (s.setGo (Grid.putAll (engineWrites s) s.go)).pixel sp x y := by
  rw [engineTurn_eq hb]
  exact pixel_congr sp x y rfl rfl rfl

/-- An engine step writes the final pixel at every output coordinate of the scan position. -/
theorem pixel_engineTurn_written {x y : Nat}
    (hxy : x / s.mode.scale = s.curI.toNat ∧ y / s.mode.scale = s.curJ.toNat) :
    (engineTurn s).pixel .go x y = outPixel s.mode x y s := by
  rw [pixel_engineTurn hb]
  cases hm : s.mode with
  | encode =>
    rw [hm] at hxy
    have hput := pixel_encodeWrites s (x / 2) (y / 2) (k := x % 2 + 2 * (y % 2)) (by omega)
    obtain ⟨hx, hy⟩ := coord_of_blockIndex x y
    rw [hx, hy] at hput
    rw [engineWrites_encode hm, ← hxy.1, ← hxy.2]
    exact hput
  | decode =>
    rw [hm, Mode.scale, Nat.div_one, Nat.div_one] at hxy
    rw [engineWrites_decode hm, ← hxy.1, ← hxy.2]
    exact pixel_decodeWrites s x y

/-- An engine step keeps every other coordinate of GO. -/
theorem pixel_engineTurn_kept {x y : Nat}
    (hxy : ¬ (x / s.mode.scale = s.curI.toNat ∧ y / s.mode.scale = s.curJ.toNat)) :
    (engineTurn s).pixel .go x y = s.pixel .go x y := by
  rw [pixel_engineTurn hb]
  refine pixel_putAll_other _ fun w hw hspot => hxy ?_
  rw [← hspot.1, ← hspot.2]
  exact engineWrites_spots hw

end EnginePixels

/-! ### Progress of either grid command -/

/-- `EncodeProgress` and `DecodeProgress` in one form: a grid command of mode `m` over a data region `dw` by
`dh`, accepted in `a`, has come as far as `s` shows. -/
structure GridProgress (m : Mode) (dw dh : Nat) (a s : State) : Prop where
  mode : s.mode = m
  dataW : s.dataW.toNat = dw
  dataH : s.dataH.toNat = dh
  gaSame : ∀ x y, s.pixel .ga x y = a.pixel .ga x y
  gbSame : ∀ x y, s.pixel .gb x y = a.pixel .gb x y
  written : ∀ x y, Passed s (x / m.scale) (y / m.scale) → s.pixel .go x y = outPixel m x y a
  kept : ∀ x y, ¬ Passed s (x / m.scale) (y / m.scale) → s.pixel .go x y = a.pixel .go x y

theorem encodeProgress_iff (a s : State) : EncodeProgress a s ↔
    GridProgress .encode (min a.aW.toNat a.bW.toNat) (min a.aH.toNat a.bH.toNat) a s := by
  constructor
  · intro h
    refine { h with written := fun x y hp => ?_ }
    have hblock := h.written (x / 2) (y / 2) (x % 2 + 2 * (y % 2)) hp (by omega)
    obtain ⟨hx, hy⟩ := coord_of_blockIndex x y
    rwa [hx, hy] at hblock
  · intro h
    refine { h with written := fun i j k hp hk => ?_ }
    obtain ⟨hi, hj, hindex⟩ := blockIndex_of_coord i j hk
    have hout := h.written (2 * i + k % 2) (2 * j + k / 2)
    rw [Mode.scale, outPixel, hi, hj, hindex] at hout
    exact hout hp

theorem decodeProgress_iff (a s : State) : DecodeProgress a s ↔
    GridProgress .decode (a.aW.toNat / 2) (a.aH.toNat / 2) a s := by
  have hscale (x : Nat) : x / Mode.decode.scale = x := Nat.div_one x
  constructor
  · intro h
    exact { h with
      written := fun x y hp => h.written x y (by rwa [hscale, hscale] at hp)
      kept := fun x y hp => h.kept x y (by rwa [hscale, hscale] at hp) }
  · intro h
    exact { h with
      written := fun x y hp => h.written x y (by rwa [hscale, hscale])
      kept := fun x y hp => h.kept x y (by rwa [hscale, hscale]) }

@[simp] theorem accept_mode (m : Mode) (dw dh : Dim) (ow oh : ODim) (s : State) :
    (accept m dw dh ow oh s).mode = m := by
  unfold accept; split <;> rfl

@[simp] theorem accept_dataW (m : Mode) (dw dh : Dim) (ow oh : ODim) (s : State) :
    (accept m dw dh ow oh s).dataW = dw := by
  unfold accept; split <;> rfl

@[simp] theorem accept_dataH (m : Mode) (dw dh : Dim) (ow oh : ODim) (s : State) :
    (accept m dw dh ow oh s).dataH = dh := by
  unfold accept; split <;> rfl

/-- Right after acceptance no data coordinate is passed: the region is empty or the scan stands at its start. -/
theorem not_passed_accept (m : Mode) (dw dh : Dim) (ow oh : ODim) (s : State) (i j : Nat) :
    ¬ Passed (accept m dw dh ow oh s) i j := by
  rintro ⟨hi, hj, hscan⟩
  by_cases h : dw = 0#16 ∨ dh = 0#16
  · rw [accept_dataW] at hi
    rw [accept_dataH] at hj
    obtain rfl | rfl := h
    · exact Nat.not_lt_zero i hi
    · exact Nat.not_lt_zero j hj
  · rw [accept_start m ow oh s h] at hscan
    obtain hlt | ⟨_, hlt⟩ := hscan rfl <;> exact Nat.not_lt_zero _ hlt

namespace GridProgress

/-- Acceptance starts the progress: nothing is passed and no pixel has changed. -/
theorem accept (m : Mode) (dw dh : Dim) (ow oh : ODim) (a : State) :
    GridProgress m dw.toNat dh.toNat a (accept m dw dh ow oh a) := by
  have hpix : PixelsSame a (Machine.accept m dw dh ow oh a) := (accept_frame m dw dh ow oh a).1.stores.pixelsSame
  exact {
    mode := accept_mode m dw dh ow oh a
    dataW := congrArg BitVec.toNat (accept_dataW m dw dh ow oh a)
    dataH := congrArg BitVec.toNat (accept_dataH m dw dh ow oh a)
    gaSame := hpix .ga
    gbSame := hpix .gb
    written := fun _ _ hp => absurd hp (not_passed_accept m dw dh ow oh a _ _)
    kept := fun x y _ => hpix .go x y }

variable {m : Mode} {dw dh : Nat} {a s t : State}

theorem of_runSame (h : GridProgress m dw dh a s) (hst : RunSame s t) : GridProgress m dw dh a t := by
  have hpassed := hst.passed
  obtain ⟨_, ⟨hmode, _, _, hdw, hdh⟩, _, hpix⟩ := hst
  exact {
    mode := hmode.trans h.mode
    dataW := hdw ▸ h.dataW
    dataH := hdh ▸ h.dataH
    gaSame := fun x y => (hpix .ga x y).trans (h.gaSame x y)
    gbSame := fun x y => (hpix .gb x y).trans (h.gbSame x y)
    written := fun x y hp => (hpix .go x y).trans (h.written x y ((hpassed _ _).mp hp))
    kept := fun x y hp => (hpix .go x y).trans (h.kept x y (mt (hpassed _ _).mpr hp)) }

/-- An engine step takes the progress past the scan position: there it writes the final pixels, and it keeps
the rest of GO. -/
theorem engineTurn (h : GridProgress m dw dh a s) (hb : s.busy = true)
    (hscan : s.curI.toNat < s.dataW.toNat ∧ s.curJ.toNat < s.dataH.toNat) :
    GridProgress m dw dh a (engineTurn s) := by
  obtain rfl := h.mode
  obtain ⟨hmode, _, _, hdw, hdh⟩ := engineTurn_latch hb
  have hpassed := passed_engineTurn hb hscan
  exact {
    mode := hmode
    dataW := hdw ▸ h.dataW
    dataH := hdh ▸ h.dataH
    gaSame := fun x y => (pixel_engineTurn hb .ga x y).trans (h.gaSame x y)
    gbSame := fun x y => (pixel_engineTurn hb .gb x y).trans (h.gbSame x y)
    written := fun x y hp => by
      by_cases hcur : x / s.mode.scale = s.curI.toNat ∧ y / s.mode.scale = s.curJ.toNat
      · exact (pixel_engineTurn_written hb hcur).trans (outPixel_congr h.gaSame h.gbSame _ x y)
      · exact (pixel_engineTurn_kept hb hcur).trans (h.written x y (((hpassed _ _).mp hp).resolve_right hcur))
    kept := fun x y hp => by
      obtain ⟨hold, hcur⟩ := not_or.mp (mt (hpassed _ _).mpr hp)
      exact (pixel_engineTurn_kept hb hcur).trans (h.kept x y hold) }

/-- Every step but a reset keeps the progress of a running grid command; and when the engine stops, DONE is
set. -/
theorem step (h : GridProgress m dw dh a s) (hinv : s.Inv) (hb : s.busy = true) (ht : step s = .next t)
    (hm : ∀ m rest, s.inputs = m :: rest → m.isReset = false) :
    GridProgress m dw dh a t ∧ (t.busy = false → t.done = true) := by
  obtain ⟨u, hu, rfl | hut⟩ := step_running hb ht hm
  · have hub := hu.busy.trans hb
    exact ⟨(h.of_runSame hu).engineTurn hub (hu.scanInRange (hinv.scanInRange hb)), engineTurn_done_of_stopped hub⟩
  · refine ⟨(h.of_runSame hu).of_runSame hut, fun hstop => ?_⟩
    rw [hut.busy, hu.busy, hb] at hstop
    cases hstop

end GridProgress

/-- Settles O50, from the start of a grid command's progress and its preservation by each kind of move. -/
theorem encodeProgressKept : Obligations.EncodeProgressKept := by
  refine ⟨fun s t hb ht => ?_, fun a s t hinv hb h ht hm => ?_⟩
  · rw [exec_encode, issue_idle _ _ hb] at ht
    cases ht
    rw [encodeProgress_iff, ← toNat_minDim, ← toNat_minDim]
    exact .accept ..
  · rw [encodeProgress_iff] at h ⊢
    exact h.step hinv hb ht hm

/-- Settles O51, from the start of a grid command's progress and its preservation by each kind of move. -/
theorem decodeProgressKept : Obligations.DecodeProgressKept := by
  refine ⟨fun s t hb ht => ?_, fun a s t hinv hb h ht hm => ?_⟩
  · rw [exec_decode, issue_idle _ _ hb] at ht
    cases ht
    rw [decodeProgress_iff, ← toNat_halfDim, ← toNat_halfDim]
    exact .accept ..
  · rw [decodeProgress_iff] at h ⊢
    exact h.step hinv hb ht hm

end Sys2Proof.Machine
end

section
/-! The decoder: every CMD word is the word of exactly one command or illegal, and an illegal word written to
CMD only records its error (30_encoding.md R90 to R97). -/

namespace Sys2Proof.Machine

/-! ### Words and their two fields -/

/-- A CMD word is its two fields (R90). -/
theorem zero_append_op (v : Word) : v.extractLsb' 4 28 ++ v.extractLsb' 0 4 = v :=
  BitVec.extractLsb'_append_extractLsb' (x := v) (len := 4)

theorem not_illegalWord_iff (v : Word) :
    ¬ IllegalWord v ↔ v.extractLsb' 4 28 = 0#28 ∧ (v.extractLsb' 0 4).toNat ≤ 9 := by
  rw [IllegalWord, not_or, not_ne_iff, Nat.not_le, Nat.lt_succ_iff]

/-! ### What a word decodes to -/

theorem decode_of_zero {v : Word} (h : v.extractLsb' 4 28 = 0#28) : decode v = decodeOp (v.extractLsb' 0 4) := by
  simp [decode, zeroFieldOk, h]

/-- A bit of 31:4 makes a word illegal, whatever its `op` (R95). -/
theorem decode_of_nonzero {v : Word} (h : v.extractLsb' 4 28 ≠ 0#28) :
    decode v = .illegal (.nonzeroField (v.extractLsb' 4 28)) := by
  simp [decode, zeroFieldOk, h]

/-- The codes 0xA to 0xF are reserved (R94). -/
theorem decodeOp_reserved {op : BitVec 4} (h : 10 ≤ op.toNat) : decodeOp op = .illegal (.reservedOp op) := by
  decide +revert

/-- A word decodes to no command exactly when it is illegal in the sense of R94 and R95. -/
theorem decode_illegal_iff (v : Word) : (∃ w, decode v = .illegal w) ↔ IllegalWord v := by
  refine ⟨fun ⟨_, h⟩ => illegalWord_of_decode h, fun h => ?_⟩
  by_cases hz : v.extractLsb' 4 28 = 0#28
  · have hop : 10 ≤ (v.extractLsb' 0 4).toNat := h.resolve_left (not_not_intro hz)
    exact ⟨_, (decode_of_zero hz).trans (decodeOp_reserved hop)⟩
  · exact ⟨_, decode_of_nonzero hz⟩

/-- A word decodes to a command exactly when it is not illegal. -/
theorem decode_command_iff_not_illegal (v : Word) :
    (∃ i, decode v = .command i) ↔ ¬ ∃ w, decode v = .illegal w := by
  cases decode v <;> simp

theorem decode_encode (i : Instr) : decode (encode i) = .command i := by
  cases i
  exacts [Laws.RoundTrip.nop.1, Laws.RoundTrip.split.1, Laws.RoundTrip.trunc.1, Laws.RoundTrip.combine.1,
    Laws.RoundTrip.merge.1, Laws.RoundTrip.extract.1, Laws.RoundTrip.encblk.1, Laws.RoundTrip.decblk.1,
    Laws.RoundTrip.encode.1, Laws.RoundTrip.decode.1]

/-- No word but that of the command decodes to it: both fields of the word are fixed. -/
theorem eq_encode_of_decode {v : Word} {i : Instr} (h : decode v = .command i) : v = encode i := by
  by_cases hz : v.extractLsb' 4 28 = 0#28
  · obtain ⟨hop, hzero⟩ := decodeOp_command ((decode_of_zero hz).symm.trans h)
    rw [← zero_append_op v, ← zero_append_op (encode i), hop, hzero, hz]
  · cases (decode_of_nonzero hz).symm.trans h

/-- Settles O2, from the two fields of a word and the decoding of each. -/
theorem decodeEncodeAgree : Obligations.DecodeEncodeAgree := by
  refine fun v => ⟨fun i => ⟨eq_encode_of_decode, ?_⟩, ?_, decode_illegal_iff v⟩
  · rintro rfl
    exact decode_encode i
  · rw [decode_command_iff_not_illegal, decode_illegal_iff, not_illegalWord_iff]

/-- Settles O1: the ten words are the words of the ten commands, in the order of R93's table. -/
theorem commandWordsDecode : Obligations.CommandWordsDecode :=
  ⟨decode_encode .nop, decode_encode .split, decode_encode .trunc, decode_encode .combine, decode_encode .merge,
    decode_encode .extract, decode_encode .encblk, decode_encode .decblk, decode_encode .encode,
    decode_encode .decode⟩

/-! ### Illegal words at the port -/

/-- A write to CMD issues its word (R25). -/
theorem regWrite_cmd (v : Word) (s : State) : regWrite 0x00#5 v s = issueCommand v s := rfl

/-- An illegal word raises ILLEGAL_CMD (R233). -/
theorem issueCommand_illegal {v : Word} (h : IllegalWord v) (s : State) :
    issueCommand v s = .next (raise .illegalCmd v s) := by
  obtain ⟨_, hw⟩ := (decode_illegal_iff v).mpr h
  simp [issueCommand, hw]

/-- Settles O3: the write is `raise`, which records the error and nothing else. -/
theorem illegalWordOnlyRaises : Obligations.IllegalWordOnlyRaises := fun s v h =>
  ⟨_, (regWrite_cmd v s).trans (issueCommand_illegal h s), raise_recorded .illegalCmd v s⟩

end Sys2Proof.Machine
end

section
/-! The pseudo-instructions of 30_encoding.md R99 that are no host write: SETPIX and the platform's write of
GO, GETPIX, and WAIT (46_host_commands.md R238). -/

namespace Sys2Proof.Machine

/-! ### Writing one pixel of a grid space -/

/-- Store `p` at `(x, y)` of the grid space `sp`. -/
def State.putPixel (sp : GridSpace) (x y : Nat) (p : Pixel) (s : State) : State :=
  match sp with
  | .ga => s.setGa (s.ga.put x y p)
  | .gb => s.setGb (s.gb.put x y p)
  | .go => s.setGo (s.go.put x y p)

theorem putPixel_frame (sp : GridSpace) (x y : Nat) (p : Pixel) (s : State) :
    s.putPixel sp x y p = { s with
      ga := (s.putPixel sp x y p).ga, gb := (s.putPixel sp x y p).gb, go := (s.putPixel sp x y p).go } := by
  cases sp <;> rfl

theorem grid_putPixel_same (sp : GridSpace) (x y : Nat) (p : Pixel) (s : State) :
    (s.putPixel sp x y p).grid sp = (s.grid sp).put x y p := by
  cases sp <;> rfl

theorem grid_putPixel_other {sp sp' : GridSpace} (h : sp' ≠ sp) (x y : Nat) (p : Pixel) (s : State) :
    (s.putPixel sp x y p).grid sp' = s.grid sp' := by
  cases sp <;> cases sp'
  case ga.ga | gb.gb | go.go => exact absurd rfl h
  all_goals rfl

/-- The pixels after one write: the one written at its coordinate, the old ones everywhere else (R63). -/
theorem pixel_putPixel (sp sp' : GridSpace) (x y u v : Nat) (p : Pixel) (s : State) :
    (s.putPixel sp x y p).pixel sp' u v = if sp' = sp ∧ u = x ∧ v = y then p else s.pixel sp' u v := by
  by_cases hsp : sp' = sp
  · subst hsp
    by_cases huv : u = x ∧ v = y
    · simp [State.pixel, grid_putPixel_same, huv]
    · have hxy : ¬ (x = u ∧ y = v) := fun h => huv ⟨h.1.symm, h.2.symm⟩
      simp [State.pixel, grid_putPixel_same, Grid.find_put_other p _ hxy, huv]
  · simp [State.pixel, grid_putPixel_other hsp, hsp]

/-! ### The platform's moves -/

/-- A coordinate that fits 16 bits is the same number in GA and GB as in GO. -/
theorem toNat_coord {x : ODim} (h : x.toNat < 2 ^ 16) : (x.setWidth 16).toNat = x.toNat := by
  rw [BitVec.toNat_setWidth, Nat.mod_eq_of_lt h]

/-- `m` is the platform's write of `p` at `(x, y)` of the grid space `sp` (R99, R238). -/
inductive WritesPixel (p : Pixel) : GridSpace → Nat → Nat → Move → Prop
  | setGA (x y : Dim) : WritesPixel p .ga x.toNat y.toNat (.setGA x y p)
  | setGB (x y : Dim) : WritesPixel p .gb x.toNat y.toNat (.setGB x y p)
  | setGO (x y : ODim) : WritesPixel p .go x.toNat y.toNat (.setGO x y p)

theorem applyMove_writesPixel {p : Pixel} {sp : GridSpace} {x y : Nat} {m : Move} (hm : WritesPixel p sp x y m)
    {s : State} (hb : s.busy = false) : applyMove m s = .next (s.putPixel sp x y p) := by
  cases hm <;> exact platformWrite_idle _ hb

/-- With BUSY = 0 a platform write at the head of the list stores its pixel. -/
theorem step_writesPixel {p : Pixel} {sp : GridSpace} {x y : Nat} {m : Move} (hm : WritesPixel p sp x y m)
    {s : State} {rest : List Move} (hs : s.inputs = m :: rest) (hb : s.busy = false) :
    step s = .next ((s.setInputs rest).putPixel sp x y p) :=
  (step_move hs).trans (applyMove_writesPixel hm hb)

/-- GETPIX copies one pixel of GO to the model's observer field, at any time (R238). -/
theorem step_getGO {s : State} {x y : ODim} {rest : List Move} (hs : s.inputs = .getGO x y :: rest) :
    step s = .next ((s.setInputs rest).setGp (s.pixel .go x.toNat y.toNat)) :=
  step_move hs

/-- Settles O44, from the pixels after one write and the platform's moves as such writes. -/
theorem platformAccesses : Obligations.PlatformAccesses := by
  refine ⟨fun s sp x y p m rest hs hb hm => ?_, fun s x y rest hs => step_getGO hs⟩
  have hwrite : WritesPixel p sp x.toNat y.toNat m := by
    obtain ⟨rfl, rfl⟩ | ⟨rfl, rfl, hx, hy⟩ | ⟨rfl, rfl, hx, hy⟩ := hm
    · exact .setGO x y
    · exact toNat_coord hx ▸ toNat_coord hy ▸ .setGA (x.setWidth 16) (y.setWidth 16)
    · exact toNat_coord hx ▸ toNat_coord hy ▸ .setGB (x.setWidth 16) (y.setWidth 16)
  refine ⟨_, step_writesPixel hwrite hs hb, putPixel_frame _ _ _ _ _, fun sp' u v => ?_⟩
  rw [pixel_putPixel, pixel_setInputs]

/-! ### WAIT -/

/-- A poll that reads BUSY = 0 ends the WAIT. -/
theorem hostWait_idle {s : State} (h : s.busy = false) : hostWait s = hostRead 0x01#5 s := by
  simp [hostWait, h]

/-- A poll that reads BUSY = 1 is queued again, after one engine turn (log entry 4). -/
theorem hostWait_busy {s : State} (h : s.busy = true) :
    hostWait s = (hostRead 0x01#5 s).setInputs (.engine :: .wait :: s.inputs) := by
  simp [hostWait, h]

/-- A read of the state whose list has lost a move answers what the state itself answers. -/
theorem hostRead_setInputs (n : RegNum) (ms : List Move) (s : State) :
    hostRead n (s.setInputs ms) = (s.setInputs ms).setRd (regRead n s) := by
  rw [hostRead, regRead_setInputs]

theorem step_wait {s : State} {rest : List Move} (hs : s.inputs = .wait :: rest) :
    step s = .next (hostWait (s.setInputs rest)) :=
  step_move hs

/-- Settles O37, from the two outcomes of a poll. -/
theorem waitPollsStatus : Obligations.WaitPollsStatus := by
  intro s rest hs
  refine ⟨fun hb => ?_, fun hb => ?_⟩
  · rw [step_wait hs, hostWait_idle (s := s.setInputs rest) hb, hostRead_setInputs]
    rfl
  · rw [step_wait hs, hostWait_busy (s := s.setInputs rest) hb, hostRead_setInputs]
    rfl

end Sys2Proof.Machine
end

section
/-! The bit_group_splitter (40_bit_group_splitter.md): `split` and `combine` are inverse, truncation clears
group 3, and SPLIT and TRUNC put these functions of OP0[7:0] in RES0. -/

namespace Sys2Proof.Machine

/-! ### A byte and its four groups -/

/-- The groups cover the byte exactly once (R125). -/
theorem append_split (v : Byte) : (split v).e0 ++ (split v).e1 ++ (split v).e2 ++ (split v).e3 = v := by
  rw [split_wiring]
  decide +revert

@[simp] theorem combine_split (v : Byte) : combine (split v) = v := by
  rw [combine_wiring, append_split]

@[simp] theorem split_combine (g : Quad BitGroup) : split (combine g) = g := by
  obtain ⟨a, b, c, d⟩ := g
  decide +revert

/-- Truncation clears group 3 and no other. -/
theorem truncateLowBits_combine (g : Quad BitGroup) : truncateLowBits (combine g) = combine { g with e3 := 0#2 } := by
  rw [truncateLowBits_wiring, combine_wiring, combine_wiring]
  exact congrArg (· ++ 0#2) BitVec.extractLsb'_append_eq_left

theorem split_truncateLowBits (v : Byte) : split (truncateLowBits v) = { split v with e3 := 0#2 } := by
  rw [← combine_split v, truncateLowBits_combine, split_combine, split_combine]

theorem truncateLowBits_truncateLowBits (v : Byte) : truncateLowBits (truncateLowBits v) = truncateLowBits v := by
  simp only [truncateLowBits, BitVec.and_assoc, BitVec.and_self]

/-- Truncation and group 3 make up the byte (R126). -/
theorem truncateLowBits_add_group (v : Byte) : truncateLowBits v + (split v).e3.setWidth 8 = v := by
  rw [base_add_group, split_wiring]
  exact BitVec.extractLsb'_append_extractLsb' (x := v) (len := 2)

/-- Settles O7, from `split` and `combine` being inverse. -/
theorem splitCoversByte : Obligations.SplitCoversByte := fun v =>
  ⟨append_split v, combine_split v, truncateLowBits_add_group v, truncateLowBits_truncateLowBits v,
    split_truncateLowBits v⟩

/-! ### Commands that write RES0 -/

/-- A command other than NOP that finds BUSY = 1 records CMD_WHILE_BUSY with its own word (R233). -/
theorem exec_busy_recorded {i : Instr} (hi : i ≠ .nop) {s : State} (hb : s.busy = true) :
    ∃ t, exec i s = .next t ∧ ErrorRecorded .cmdWhileBusy (encode i) s t := by
  obtain ⟨f, hf⟩ := exec_issue i hi
  exact ⟨_, (hf s).trans (issue_busy i f hb), raise_recorded .cmdWhileBusy (encode i) s⟩

/-- Bits inside a lane are bits of the word. -/
theorem extractLsb'_lane {i n : Nat} (h : i + n ≤ 8) (k : Nat) (w : Word) :
    (lane k w).extractLsb' i n = w.extractLsb' (8 * k + i) n := by
  refine BitVec.eq_of_getLsbD_eq fun j hj => ?_
  have hij : i + j < 8 := by omega
  simp only [BitVec.getLsbD_extractLsb', getLsbD_lane, hij, decide_true, Bool.true_and, Nat.add_assoc]

/-- `zext_8` of a group. -/
theorem setWidth_group (g : BitGroup) : g.setWidth 8 = 0#6 ++ g := BitVec.setWidth_eq_append (by decide)

/-- `zext_32` of a byte. -/
theorem resultByte_eq (b : Byte) : resultByte b = 0#24 ++ b := BitVec.setWidth_eq_append (by decide)

theorem resultGroups_eq (q : Quad BitGroup) :
    resultGroups q = 0#6 ++ q.e3 ++ (0#6 ++ q.e2) ++ (0#6 ++ q.e1) ++ (0#6 ++ q.e0) := by
  simp only [resultGroups, pack4, Quad.map, setWidth_group]

/-- Group 0 is the top pair of the byte and sits in the lowest lane of the result (R123). -/
theorem resultGroups_split_lane (w : Word) : resultGroups (split (lane 0 w)) =
    0#6 ++ w.extractLsb' 0 2 ++ (0#6 ++ w.extractLsb' 2 2) ++ (0#6 ++ w.extractLsb' 4 2) ++
      (0#6 ++ w.extractLsb' 6 2) := by
  simp [resultGroups_eq, split_wiring, extractLsb'_lane]

theorem resultByte_truncateLowBits_lane (w : Word) :
    resultByte (truncateLowBits (lane 0 w)) = 0#24 ++ w.extractLsb' 2 6 ++ 0#2 := by
  rw [resultByte_eq, truncateLowBits_wiring, extractLsb'_lane (by decide)]
  exact BitVec.append_assoc'

/-- Settles O15, from `split` as wiring and the issue of a command. -/
theorem splitWritesGroups : Obligations.SplitWritesGroups := by
  refine fun s => ⟨fun hb => ?_, exec_busy_recorded (by decide), decode_encode .split⟩
  rw [exec_split, issue_idle _ _ hb, operandByte, resultGroups_split_lane]
  rfl

/-- Settles O16, from `truncate_low_bits` as wiring and the issue of a command. -/
theorem truncClearsLowBits : Obligations.TruncClearsLowBits := by
  refine fun s => ⟨fun hb => ?_, exec_busy_recorded (by decide), decode_encode .trunc⟩
  rw [exec_trunc, issue_idle _ _ hb, operandByte, resultByte_truncateLowBits_lane]
  rfl

end Sys2Proof.Machine
end

section
/-! The bit_group_reassembler (41_bit_group_reassembler.md): COMBINE joins the four groups of OP0 when every
lane holds one, records OPERAND_RANGE when one does not, and undoes SPLIT. -/

namespace Sys2Proof.Machine

/-! ### The domain of COMBINE -/

/-- A lane whose bits 7:2 are 0 holds a group. -/
theorem high_bits_zero_iff (b : Byte) : b &&& 0xFC#8 = 0#8 ↔ b.toNat ≤ 3 := by decide +revert

/-- A group in a lane of its own is in the domain. -/
theorem toNat_setWidth_group_le (g : BitGroup) : (g.setWidth 8).toNat ≤ 3 := by decide +revert

theorem setWidth_group_low (g : BitGroup) : (g.setWidth 8).extractLsb' 0 2 = g := by decide +revert

/-- COMBINE's domain check says that no lane of OP0 is above 3 (R142). -/
theorem operandGroupsInDomain_iff (s : State) :
    operandGroupsInDomain s = true ↔ ∀ k, k < 4 → (lane k s.op0).toNat ≤ 3 := by
  simp only [operandGroupsInDomain, Bool.and_eq_true, beq_iff_eq, high_bits_zero_iff]
  constructor
  · rintro ⟨⟨⟨h0, h1⟩, h2⟩, h3⟩ k hk
    interval_cases k <;> assumption
  · exact fun h => ⟨⟨⟨h 0 (by decide), h 1 (by decide)⟩, h 2 (by decide)⟩, h 3 (by decide)⟩

theorem operandGroupsInDomain_eq_false_iff (s : State) :
    operandGroupsInDomain s = false ↔ ∃ k, k < 4 ∧ 3 < (lane k s.op0).toNat := by
  simp only [← Bool.not_eq_true, operandGroupsInDomain_iff, not_forall, not_le, exists_prop]

/-! ### COMBINE on an operand inside and outside its domain -/

theorem exec_combine_inDomain {s : State} (hb : s.busy = false) (hd : operandGroupsInDomain s = true) :
    exec .combine s = .next (s.setRes0 (resultByte (combine (operandGroups s)))) := by
  rw [exec_combine, issue_idle _ _ hb, if_pos hd]

theorem exec_combine_outOfRange {s : State} (hb : s.busy = false) (hd : operandGroupsInDomain s = false) :
    exec .combine s = .next (raise .operandRange (encode .combine) s) := by
  rw [exec_combine, issue_idle _ _ hb, hd, if_neg Bool.false_ne_true]

/-- The result of COMBINE bit by bit: group 0, the lowest lane's, is the top pair of the byte (R142). -/
theorem resultByte_combine (g : Quad BitGroup) :
    resultByte (combine g) = 0#24 ++ g.e0 ++ g.e1 ++ g.e2 ++ g.e3 := by
  rw [resultByte_eq, combine_wiring]
  refine BitVec.eq_of_toNat_eq ?_
  simp only [BitVec.toNat_append, BitVec.toNat_zero, Nat.zero_shiftLeft, Nat.zero_or]

theorem operandGroups_eq (s : State) : operandGroups s =
    ⟨s.op0.extractLsb' 0 2, s.op0.extractLsb' 8 2, s.op0.extractLsb' 16 2, s.op0.extractLsb' 24 2⟩ := by
  simp [operandGroups, lanes, Quad.map, extractLsb'_lane]

/-- Settles O17, from the domain check as a bound on the lanes. -/
theorem combineJoinsGroups : Obligations.CombineJoinsGroups := by
  refine fun s => ⟨fun hb hle => ?_, fun hb hgt => ?_, exec_busy_recorded (by decide), decode_encode .combine⟩
  · rw [exec_combine_inDomain hb ((operandGroupsInDomain_iff s).2 hle), resultByte_combine, operandGroups_eq]
    rfl
  · exact ⟨_, exec_combine_outOfRange hb ((operandGroupsInDomain_eq_false_iff s).2 hgt),
      raise_recorded .operandRange (encode .combine) s⟩

/-! ### COMBINE of what SPLIT left -/

section
variable {s : State} {g : Quad BitGroup} (h : s.op0 = resultGroups g)
include h

theorem lanes_op0_of_resultGroups : lanes s.op0 = g.map (fun b => b.setWidth 8) := by
  rw [h, resultGroups, lanes_pack4]

/-- The result format of SPLIT is read back by the operand format of COMBINE. -/
theorem operandGroups_of_resultGroups : operandGroups s = g := by
  simp only [operandGroups, lanes_op0_of_resultGroups h, Quad.map, setWidth_group_low]

theorem operandGroupsInDomain_of_resultGroups : operandGroupsInDomain s = true := by
  have hl := lanes_op0_of_resultGroups h
  simp only [lanes, Quad.map, Quad.mk.injEq] at hl
  obtain ⟨h0, h1, h2, h3⟩ := hl
  simp only [operandGroupsInDomain, Bool.and_eq_true, beq_iff_eq, high_bits_zero_iff, h0, h1, h2, h3,
    toNat_setWidth_group_le, and_self]

/-- Undoing SPLIT: groups in SPLIT's result format are always in the domain, so nothing is raised (R143). -/
theorem exec_combine_of_resultGroups (hb : s.busy = false) :
    exec .combine s = .next (s.setRes0 (resultByte (combine g))) := by
  rw [exec_combine_inDomain hb (operandGroupsInDomain_of_resultGroups h), operandGroups_of_resultGroups h]

end

/-- Settles O8: COMBINE reads back the groups SPLIT wrote, and `combine` inverts `split`. -/
theorem combineInvertsSplit : Obligations.CombineInvertsSplit := by
  refine ⟨combine_split, split_combine, fun s t hb ht => ?_⟩
  rw [exec_split, issue_idle _ _ hb] at ht
  have hres : t.res0 = resultGroups (split (operandByte s)) := by cases ht; rfl
  have hidle : t.busy = false := by cases ht; exact hb
  rw [exec_combine_of_resultGroups (s := { t with op0 := t.res0 }) hres hidle, combine_split]
  rfl

end Sys2Proof.Machine
end

section
/-! The channel_merger (42_channel_merger.md): every output is the carrier's top six bits above a group of the
secret, and MERGE puts the four outputs in the lanes of RES0. -/

namespace Sys2Proof.Machine

/-! ### The carrier's top six bits above a group -/

@[simp] theorem Quad.get_map {α β : Type} (f : α → β) (q : Quad α) (k : Nat) : (q.map f).get k = f (q.get k) := by
  simp only [Quad.get, Quad.map]
  split <;> rfl

/-- Every output of `merge` is the carrier's top six bits above its group of the secret (R150). -/
theorem merge_get (c s : Byte) (k : Nat) : (merge c s).get k = c.extractLsb' 2 6 ++ (split s).get k := by
  rw [merge, Quad.get_map, base_add_group]

theorem top_append_and_keep (c : Byte) (g : BitGroup) :
    (c.extractLsb' 2 6 ++ g) &&& 0b11111100#8 = c &&& 0b11111100#8 := by
  revert g; decide +revert

theorem append_group_and_low (t : BitVec 6) (g : BitGroup) : (t ++ g) &&& 0b11#8 = g.setWidth 8 := by
  revert g; decide +revert

/-- A group replaces the remainder of the carrier modulo 4. -/
theorem toNat_top_append (c : Byte) (g : BitGroup) :
    (c.extractLsb' 2 6 ++ g).toNat = 4 * (c.toNat / 4) + g.toNat := by
  revert g; decide +revert

/-- `merge` sees the carrier's top six bits only (R153). -/
theorem merge_congr_top {c c' : Byte} (h : c'.extractLsb' 2 6 = c.extractLsb' 2 6) (s : Byte) :
    merge c' s = merge c s := by
  rw [merge_wiring, merge_wiring, h]

/-- Settles O9, from each output as the carrier's top six bits above a group, which is less than 4. -/
theorem mergeKeepsCarrierTop : Obligations.MergeKeepsCarrierTop := by
  intro c s k _
  have hval : ((merge c s).get k).toNat = 4 * (c.toNat / 4) + ((split s).get k).toNat := by
    rw [merge_get, toNat_top_append]
  have hlt : ((split s).get k).toNat < 4 := ((split s).get k).isLt
  refine ⟨?top, ?low, by omega, by omega, abs_le.mpr ⟨by omega, by omega⟩, fun c' h => merge_congr_top h s⟩
  case top => rw [merge_get, top_append_and_keep]
  case low => rw [merge_get, append_group_and_low]

/-! ### MERGE -/

/-- Group 0 of the secret, its top pair, sits in the lowest lane of the result (R152). -/
theorem pack4_merge_lanes (w : Word) : pack4 (merge (lane 0 w) (lane 1 w)) =
    w.extractLsb' 2 6 ++ w.extractLsb' 8 2 ++ (w.extractLsb' 2 6 ++ w.extractLsb' 10 2) ++
      (w.extractLsb' 2 6 ++ w.extractLsb' 12 2) ++ (w.extractLsb' 2 6 ++ w.extractLsb' 14 2) := by
  simp [pack4, merge_wiring, extractLsb'_lane]

/-- Settles O18, from `merge` as wiring and the issue of a command. -/
theorem mergeWritesLanes : Obligations.MergeWritesLanes := by
  refine fun s => ⟨fun hb => ?_, exec_busy_recorded (by decide), decode_encode .merge⟩
  rw [exec_merge, issue_idle _ _ hb, operandCarrier, operandSecret, pack4_merge_lanes]
  rfl

end Sys2Proof.Machine
end

section
/-! The channel_extractor (43_channel_extractor.md): `extract` reassembles the low groups of its inputs, which
after `merge` are the groups of the secret, and EXTRACT puts it in RES0. -/

namespace Sys2Proof.Machine

/-! ### The low groups of four values -/

/-- Four values are equal if each of them is. -/
theorem Quad.ext_get {α : Type} {q r : Quad α} (h : ∀ k, k < 4 → q.get k = r.get k) : q = r := by
  obtain ⟨a, b, c, d⟩ := q
  obtain ⟨a', b', c', d'⟩ := r
  rw [Quad.mk.injEq]
  exact ⟨h 0 (by decide), h 1 (by decide), h 2 (by decide), h 3 (by decide)⟩

/-- `extract` reassembles bits 1:0 of its inputs, with no domain to check (R160). -/
theorem extract_eq_combine (v : Quad Byte) : extract v = combine (v.map (fun b => b.extractLsb' 0 2)) := by
  simp only [extract, low_two]

/-- `extract` sees bits 1:0 of its inputs only (R164). -/
theorem extract_congr_low {v w : Quad Byte}
    (h : ∀ k, k < 4 → (v.get k).extractLsb' 0 2 = (w.get k).extractLsb' 0 2) : extract v = extract w := by
  rw [extract_eq_combine, extract_eq_combine]
  refine congrArg combine (Quad.ext_get fun k hk => ?_)
  rw [Quad.get_map, Quad.get_map, h k hk]

/-- The low groups of what `merge` leaves are the groups of the secret. -/
theorem merge_low_groups (c s : Byte) : (merge c s).map (fun b => b.extractLsb' 0 2) = split s := by
  refine Quad.ext_get fun k _ => ?_
  rw [Quad.get_map, merge_get, BitVec.extractLsb'_append_eq_right]

@[simp] theorem extract_merge (c s : Byte) : extract (merge c s) = s := by
  rw [extract_eq_combine, merge_low_groups, combine_split]

/-- Another carrier with the same top six bits: bit 0 inverted. -/
theorem xor_one_top (c : Byte) : (c ^^^ 1#8).extractLsb' 2 6 = c.extractLsb' 2 6 := by decide +revert

theorem xor_one_ne (c : Byte) : c ^^^ 1#8 ≠ c := by decide +revert

/-- Settles O10: `extract` reads back the groups `merge` wrote, and `merge` drops bit 0 of the carrier. -/
theorem extractInvertsMerge : Obligations.ExtractInvertsMerge :=
  ⟨extract_merge, fun _ _ => extract_congr_low,
    fun c => ⟨c ^^^ 1#8, xor_one_ne c, merge_congr_top (xor_one_top c)⟩⟩

/-! ### EXTRACT -/

/-- EXTRACT reads OP0 as COMBINE does, bits 7:2 of the lanes being ignored (R162). -/
theorem extract_operandBytes (s : State) : extract (operandBytes s) = combine (operandGroups s) :=
  extract_eq_combine (lanes s.op0)

/-- Settles O19, from the groups of OP0 that COMBINE reads too, and the issue of a command. -/
theorem extractJoinsLowBits : Obligations.ExtractJoinsLowBits := by
  refine fun s => ⟨fun hb => ?_, exec_busy_recorded (by decide), decode_encode .extract⟩
  rw [exec_extract, issue_idle _ _ hb, extract_operandBytes, resultByte_combine, operandGroups_eq]
  rfl

end Sys2Proof.Machine
end

section
/-! The stego_encoder_datapath (44_stego_encoder_datapath.md): each channel of a block is a `merge` of that
channel of carrier and secret, ENCBLK puts the block in the RES registers, ENCODE latches the overlap, and the
engine writes one block a step, in any order of the data coordinates. -/

namespace Sys2Proof.Machine

/-! ### A block, channel by channel -/

/-- The channels do not mix (R170). -/
theorem chan_encBlock_get {c : Nat} (hc : c < 3) (p q : Pixel) (k : Nat) :
    chan c ((encBlock p q).get k) = (merge (chan c p) (chan c q)).get k := by
  simp only [encBlock, Quad.get]
  interval_cases c <;> split <;> simp

theorem split_get (v : Byte) {k : Nat} (hk : k < 4) : (split v).get k = v.extractLsb' (6 - 2 * k) 2 := by
  rw [split_wiring]
  interval_cases k <;> rfl

/-- Settles O11: channel `c` is a `merge`, whose output `k` has group `k` of the secret in its low bits. -/
theorem encBlockChannels : Obligations.EncBlockChannels := fun p q c k hc hk => by
  rw [chan_encBlock_get hc, merge_get, split_get _ hk]

/-- Settles O56, from each channel as a `merge` and the distance `merge` keeps from the carrier. -/
theorem encodedBlockLooksLikeCarrier : Obligations.EncodedBlockLooksLikeCarrier := by
  intro p q c k hc hk
  obtain ⟨_, _, _, _, hdist, _⟩ := mergeKeepsCarrierTop (chan c p) (chan c q) k hk
  rw [chan_encBlock_get hc]
  refine ⟨?_, ?_, hdist⟩
  · rw [merge_get, BitVec.extractLsb'_append_eq_left]
  · rw [merge_get, BitVec.extractLsb'_append_eq_right]

/-! ### ENCBLK -/

/-- A pixel operand's channel is the lane of its register. -/
theorem chan_pixelOf {c : Nat} (hc : c < 3) (w : Word) : chan c (pixelOf w) = lane c w := by
  refine BitVec.eq_of_getLsbD_eq fun i hi => ?_
  have hbit : 8 * c + i < 24 := by omega
  simp only [getLsbD_chan, getLsbD_lane, pixelOf, BitVec.getLsbD_extractLsb', hbit, decide_true, Bool.true_and,
    Nat.zero_add]

/-- `zext_32` of a pixel, channel by channel. -/
theorem resultPixel_eq (p : Pixel) : resultPixel p = 0#8 ++ chan 2 p ++ chan 1 p ++ chan 0 p := by
  have hzext : resultPixel p = 0#8 ++ p := BitVec.setWidth_eq_append (by decide)
  rw [hzext, ← pix_chan p, chan_pix_zero, chan_pix_one, chan_pix_two]
  refine BitVec.eq_of_toNat_eq ?_
  simp only [pix, BitVec.toNat_append, BitVec.toNat_zero, Nat.zero_shiftLeft, Nat.zero_or]

/-- Block pixel `k` as a result word: each channel is the carrier's bits 7:2 above the secret's group (R172). -/
theorem resultPixel_encBlock_get (v w : Word) {k : Nat} (hk : k < 4) :
    resultPixel ((encBlock (pixelOf v) (pixelOf w)).get k) =
      0#8 ++ (v.extractLsb' 18 6 ++ w.extractLsb' (22 - 2 * k) 2) ++
        (v.extractLsb' 10 6 ++ w.extractLsb' (14 - 2 * k) 2) ++
        (v.extractLsb' 2 6 ++ w.extractLsb' (6 - 2 * k) 2) := by
  rw [resultPixel_eq, encBlockChannels _ _ 0 k (by decide) hk, encBlockChannels _ _ 1 k (by decide) hk,
    encBlockChannels _ _ 2 k (by decide) hk]
  interval_cases k <;> simp [chan_pixelOf, extractLsb'_lane]

/-- Settles O20, from the block pixels as result words and the issue of a command. -/
theorem encblkWritesBlock : Obligations.EncblkWritesBlock := by
  intro s block
  refine ⟨fun hb => ?_, exec_busy_recorded (by decide), decode_encode .encblk⟩
  have hblock (k : Nat) (hk : k < 4) : resultPixel ((encBlock (operandP s) (operandQ s)).get k) = block k :=
    resultPixel_encBlock_get s.op0 s.op1 hk
  rw [exec_encblk, issue_idle _ _ hb, ← hblock 0 (by decide), ← hblock 1 (by decide), ← hblock 2 (by decide),
    ← hblock 3 (by decide)]
  rfl

/-! ### ENCODE: acceptance -/

/-- `2*d` is `d` with a 0 below it (00_scope.md R10 (d)). -/
theorem twiceDim_eq (d : Dim) : twiceDim d = d ++ 0#1 := by
  refine BitVec.eq_of_toNat_eq ?_
  rw [toNat_twiceDim, BitVec.toNat_append]
  simp [Nat.shiftLeft_eq, Nat.mul_comm]

theorem toNat_minDim_append (a b : Dim) : (minDim a b ++ 0#1).toNat = 2 * min a.toNat b.toNat := by
  rw [← twiceDim_eq, toNat_twiceDim, toNat_minDim]

/-- ENCODE at rest is the acceptance of the overlap, with twice its size as output (R173). -/
theorem exec_encode_idle {s : State} (hb : s.busy = false) : exec .encode s =
    .next (accept .encode (minDim s.aW s.bW) (minDim s.aH s.bH) (minDim s.aW s.bW ++ 0#1)
      (minDim s.aH s.bH ++ 0#1) s) := by
  rw [exec_encode, issue_idle _ _ hb, twiceDim_eq, twiceDim_eq]

/-- Settles O22, from the two outcomes of an acceptance and the issue of a command. -/
theorem encodeAcceptance : Obligations.EncodeAcceptance := by
  intro s
  refine ⟨fun hb hstart => ?_, fun hb hempty => ?_, toNat_minDim_append s.aW s.bW, toNat_minDim_append s.aH s.bH,
    exec_busy_recorded (by decide), decode_encode .encode⟩
  · exact (exec_encode_idle hb).trans (congrArg Host.Outcome.next (accept_start _ _ _ s hstart))
  · exact (exec_encode_idle hb).trans (congrArg Host.Outcome.next (accept_empty _ _ _ s hempty))

/-! ### ENCODE: one step of the engine -/

/-- The advance writes no register but the scan position, BUSY and DONE. -/
theorem advance_frame (s : State) : advance s = { s with
    curI := (advance s).curI, curJ := (advance s).curJ, busy := (advance s).busy, done := (advance s).done } := by
  obtain ⟨_, h⟩ | ⟨_, _, h⟩ | ⟨_, _, h⟩ := advance_cases s <;> rw [h] <;> rfl

/-- An engine turn writes GO and no register but the scan position, BUSY and DONE. -/
theorem engineTurn_frame (s : State) : engineTurn s = { s with
    go := (engineTurn s).go, curI := (engineTurn s).curI, curJ := (engineTurn s).curJ
    busy := (engineTurn s).busy, done := (engineTurn s).done } := by
  cases hb : s.busy with
  | false => rw [engineTurn_idle hb]
  | true =>
    rw [engineTurn_eq hb]
    exact congrArg (State.setStores s.ga s.gb (Grid.putAll (engineWrites s) s.go)) (advance_frame s)

/-- Settles O39, from the block an ENCODE body writes and the frame of the engine's turn. -/
theorem encodeStepWritesBlock : Obligations.EncodeStepWritesBlock := by
  intro s hb hm i j b t
  have hblock (k : Nat) (hk : k < 4) : t.pixel .go (2 * i + k % 2) (2 * j + k / 2) = b.get k := by
    rw [pixel_engineTurn hb, engineWrites_encode hm, pixel_encodeWrites s _ _ hk]
  refine ⟨hblock 0 (by decide), hblock 1 (by decide), hblock 2 (by decide), hblock 3 (by decide),
    fun x y hxy => pixel_engineTurn_kept hb (by rwa [hm]),
    fun x y => ⟨pixel_engineTurn hb .ga x y, pixel_engineTurn hb .gb x y⟩, engineTurn_frame s⟩

/-! ### ENCODE: the order of the blocks -/

theorem find_putAll_encodeWrites_block (s : State) (i j : Nat) {k : Nat} (hk : k < 4) (g : Grid) :
    Grid.find (2 * i + k % 2) (2 * j + k / 2) (Grid.putAll (encodeWrites i j s) g) =
      some ((encBlock (s.pixel .ga i j) (s.pixel .gb i j)).get k) := by
  interval_cases k <;> simp [encodeWrites, Grid.find_put, Quad.get]

/-- The writes of one block, read back anywhere: what they leave at a coordinate does not depend on what stood
there before (R174, R179). -/
theorem find_putAll_encodeWrites (s : State) (i j x y : Nat) (g : Grid) :
    Grid.find x y (Grid.putAll (encodeWrites i j s) g) =
      if x / 2 = i ∧ y / 2 = j then some (outPixel .encode x y s) else Grid.find x y g := by
  split
  case isTrue h =>
    obtain ⟨rfl, rfl⟩ := h
    have hput := find_putAll_encodeWrites_block s (x / 2) (y / 2) (k := x % 2 + 2 * (y % 2)) (by omega) g
    obtain ⟨hx, hy⟩ := coord_of_blockIndex x y
    rwa [hx, hy] at hput
  case isFalse h =>
    refine Grid.find_putAll_other _ _ fun w hw hspot => h ?_
    obtain ⟨rfl, rfl⟩ := hspot
    exact encodeWrites_spots hw

/-- The writes of many blocks, read back anywhere: only which data coordinates are visited matters (R180). -/
theorem find_putAll_flatMap_encodeWrites (s : State) (cs : List (Nat × Nat)) (x y : Nat) (g : Grid) :
    Grid.find x y (Grid.putAll (cs.flatMap fun c => encodeWrites c.1 c.2 s) g) =
      if (x / 2, y / 2) ∈ cs then some (outPixel .encode x y s) else Grid.find x y g := by
  induction cs generalizing g with
  | nil => simp
  | cons c cs ih =>
    rw [List.flatMap_cons, Grid.putAll_append, ih, find_putAll_encodeWrites]
    by_cases hmem : (x / 2, y / 2) ∈ cs <;> simp [hmem, Prod.ext_iff]

/-- Settles O55: a permutation visits the same data coordinates. That none is visited twice is not needed. -/
theorem encodeOrderIndependent : Obligations.EncodeOrderIndependent := by
  intro s cs ds g x y _ hperm
  rw [find_putAll_flatMap_encodeWrites, find_putAll_flatMap_encodeWrites]
  simp only [hperm.mem_iff]

end Sys2Proof.Machine
end

section
/-! A grid command runs to its end: with no other move pending the engine takes exactly one step for each data
coordinate, and the command's result then stands in GO (44_stego_encoder_datapath.md R175, 46_host_commands.md
R237, log entry 3). -/

namespace Sys2Proof.Machine

/-! ### A run of the machine with no move pending -/

/-- An engine turn leaves the list of moves. -/
@[simp] theorem engineTurn_inputs (s : State) : (engineTurn s).inputs = s.inputs := by
  rw [engineTurn_frame]

/-- With no move pending, `n` steps are `n` turns of the engine (log entry 3). -/
theorem run_quiet {s : State} (h : s.inputs = []) (n : Nat) :
    Host.Core.run Sys2Proof.core n s = .next (engineTurn^[n] s) := by
  induction n generalizing s with
  | zero => rfl
  | succ n ih =>
    have hstep : Sys2Proof.core.step s = .next (engineTurn s) := step_quiet h
    simp only [Host.Core.run, hstep]
    exact ih ((engineTurn_inputs s).trans h)

/-- Any number of engine turns writes GO and no register but the scan position, BUSY and DONE. -/
theorem iterate_engineTurn_frame (n : Nat) (s : State) : engineTurn^[n] s = { s with
    go := (engineTurn^[n] s).go, curI := (engineTurn^[n] s).curI, curJ := (engineTurn^[n] s).curJ
    busy := (engineTurn^[n] s).busy, done := (engineTurn^[n] s).done } := by
  induction n with
  | zero => rfl
  | succ n ih =>
    rw [Function.iterate_succ_apply']
    refine (engineTurn_frame _).trans ?_
    rw [ih]

/-! ### Where the scan stands -/

/-- The scan of the grid command latched in `s` is in order: inside the data region with DONE = 0 while the
engine runs, at the last data coordinate, or (0, 0) for an empty region, with DONE = 1 at the end (R33, R175). -/
structure ScanInOrder (s : State) : Prop where
  scanning : s.busy = true → s.curI.toNat < s.dataW.toNat ∧ s.curJ.toNat < s.dataH.toNat
  done : s.done = !s.busy
  last : s.busy = false → 0 < s.dataW.toNat ∧ 0 < s.dataH.toNat →
    s.curI.toNat + 1 = s.dataW.toNat ∧ s.curJ.toNat + 1 = s.dataH.toNat
  origin : s.dataW.toNat = 0 ∨ s.dataH.toNat = 0 → s.curI = 0#16 ∧ s.curJ = 0#16

/-- The steps a running grid command still needs: one for the scan position and one for each data coordinate
after it in raster order (R236). -/
def State.stepsLeft (s : State) : Nat :=
  if s.busy then s.dataW.toNat * s.dataH.toNat - (s.dataW.toNat * s.curJ.toNat + s.curI.toNat) else 0

theorem stepsLeft_idle {s : State} (hb : s.busy = false) : s.stepsLeft = 0 := by
  simp [State.stepsLeft, hb]

theorem stepsLeft_busy {s : State} (hb : s.busy = true) : s.stepsLeft =
    s.dataW.toNat * s.dataH.toNat - (s.dataW.toNat * s.curJ.toNat + s.curI.toNat) := by
  simp [State.stepsLeft, hb]

/-- The engine runs exactly while steps are left. -/
theorem ScanInOrder.busy_iff {s : State} (h : ScanInOrder s) : s.busy = true ↔ 0 < s.stepsLeft := by
  cases hb : s.busy with
  | false => simp [stepsLeft_idle hb]
  | true =>
    obtain ⟨hi, hj⟩ := h.scanning hb
    have hrow : s.dataW.toNat * (s.curJ.toNat + 1) ≤ s.dataW.toNat * s.dataH.toNat := Nat.mul_le_mul_left _ hj
    rw [Nat.mul_succ] at hrow
    rw [stepsLeft_busy hb]
    exact ⟨fun _ => by omega, fun _ => rfl⟩

/-- The advance leaves one step less: the next coordinate of the row, the next row, or none (R236). -/
theorem stepsLeft_advance {s : State} (h : ScanInOrder s) (hb : s.busy = true) :
    (advance s).stepsLeft = s.stepsLeft - 1 := by
  obtain ⟨hci, hcj⟩ := h.scanning hb
  have hwi := s.dataW.isLt
  have hwj := s.dataH.isLt
  rw [stepsLeft_busy hb]
  obtain ⟨hi, ha⟩ | ⟨hi, hj, ha⟩ | ⟨hi, hj, ha⟩ := advance_cases s <;> rw [ha]
  · have hnext : (s.curI + 1#16).toNat = s.curI.toNat + 1 := BitVec.toNat_add_of_lt (hi.trans hwi)
    rw [stepsLeft_busy (s := s.setCur (s.curI + 1#16) s.curJ) hb]
    simp only [State.setCur_dataW, State.setCur_dataH, State.setCur_curI, State.setCur_curJ, hnext]
    omega
  · have hnext : (s.curJ + 1#16).toNat = s.curJ.toNat + 1 := BitVec.toNat_add_of_lt (hj.trans hwj)
    rw [stepsLeft_busy (s := s.setCur 0#16 (s.curJ + 1#16)) hb]
    simp only [State.setCur_dataW, State.setCur_dataH, State.setCur_curI, State.setCur_curJ, hnext, Nat.mul_succ,
      BitVec.toNat_zero]
    omega
  · have hrow : s.dataH.toNat = s.curJ.toNat + 1 := by omega
    rw [stepsLeft_idle (s := s.finish) rfl, hrow, Nat.mul_succ]
    omega

/-- The advance keeps the scan in order. -/
theorem ScanInOrder.advance {s : State} (h : ScanInOrder s) (hb : s.busy = true) : ScanInOrder (advance s) := by
  obtain ⟨hci, hcj⟩ := h.scanning hb
  have hwi := s.dataW.isLt
  have hwj := s.dataH.isLt
  have hregion : ¬ (s.dataW.toNat = 0 ∨ s.dataH.toNat = 0) := by omega
  obtain ⟨hi, ha⟩ | ⟨hi, hj, ha⟩ | ⟨hi, hj, ha⟩ := advance_cases s <;> rw [ha]
  · have hnext : (s.curI + 1#16).toNat = s.curI.toNat + 1 := BitVec.toNat_add_of_lt (hi.trans hwi)
    exact {
      scanning := fun _ => ⟨hnext ▸ hi, hcj⟩
      done := h.done
      last := by simp [hb]
      origin := fun hempty => absurd hempty hregion }
  · have hnext : (s.curJ + 1#16).toNat = s.curJ.toNat + 1 := BitVec.toNat_add_of_lt (hj.trans hwj)
    exact {
      scanning := fun _ => ⟨(Nat.zero_le _).trans_lt hci, hnext ▸ hj⟩
      done := h.done
      last := by simp [hb]
      origin := fun hempty => absurd hempty hregion }
  · have hlast : s.curI.toNat + 1 = s.dataW.toNat ∧ s.curJ.toNat + 1 = s.dataH.toNat := by omega
    exact {
      scanning := nofun
      done := rfl
      last := fun _ _ => hlast
      origin := fun hempty => absurd hempty hregion }

theorem ScanInOrder.engineTurn {s : State} (h : ScanInOrder s) : ScanInOrder (engineTurn s) := by
  cases hb : s.busy with
  | false => rwa [engineTurn_idle hb]
  | true =>
    rw [engineTurn_eq hb]
    exact { h.advance hb with }

theorem stepsLeft_engineTurn {s : State} (h : ScanInOrder s) : (engineTurn s).stepsLeft = s.stepsLeft - 1 := by
  cases hb : s.busy with
  | false => rw [engineTurn_idle hb, stepsLeft_idle hb]
  | true =>
    rw [engineTurn_eq hb]
    exact stepsLeft_advance h hb

/-! ### A grid command from its acceptance on -/

section GridRun
variable {a : State} (hb : a.busy = false) (m : Mode) (dw dh : Dim) (ow oh : ODim)
include hb

/-- Acceptance puts the scan in order, at the start of the region. -/
theorem ScanInOrder.accept : ScanInOrder (accept m dw dh ow oh a) := by
  by_cases h : dw = 0#16 ∨ dh = 0#16
  · rw [accept_empty m ow oh a h]
    have hempty : ¬ (0 < dw.toNat ∧ 0 < dh.toNat) := by
      rintro ⟨hw, hh⟩
      obtain rfl | rfl := h
      · exact Nat.lt_irrefl 0 hw
      · exact Nat.lt_irrefl 0 hh
    exact {
      scanning := by simp [hb]
      done := by simp [hb]
      last := fun _ hpos => absurd hpos hempty
      origin := fun _ => ⟨rfl, rfl⟩ }
  · rw [accept_start m ow oh a h]
    have hpos : 0 < dw.toNat ∧ 0 < dh.toNat := by
      simp only [← BitVec.toNat_inj, BitVec.toNat_zero] at h
      omega
    exact {
      scanning := fun _ => hpos
      done := rfl
      last := nofun
      origin := fun _ => ⟨rfl, rfl⟩ }

/-- Acceptance starts with one step for each data coordinate. -/
theorem stepsLeft_accept : (accept m dw dh ow oh a).stepsLeft = dw.toNat * dh.toNat := by
  by_cases h : dw = 0#16 ∨ dh = 0#16
  · rw [accept_empty m ow oh a h, stepsLeft_idle (s := (a.latch m dw dh ow oh).setDone) hb]
    obtain rfl | rfl := h <;> simp
  · rw [accept_start m ow oh a h, stepsLeft_busy (s := (a.latch m dw dh ow oh).start) rfl]
    simp

/-- Each engine turn from the acceptance on keeps the scan in order, takes one step off those left, and takes the
progress one data coordinate further. -/
theorem iterate_engineTurn_accept (n : Nat) : ScanInOrder (engineTurn^[n] (accept m dw dh ow oh a)) ∧
    (engineTurn^[n] (accept m dw dh ow oh a)).stepsLeft = dw.toNat * dh.toNat - n ∧
    GridProgress m dw.toNat dh.toNat a (engineTurn^[n] (accept m dw dh ow oh a)) := by
  induction n with
  | zero => exact ⟨.accept hb .., stepsLeft_accept hb .., .accept ..⟩
  | succ n ih =>
    obtain ⟨hscan, hleft, hprogress⟩ := ih
    rw [Function.iterate_succ_apply']
    refine ⟨hscan.engineTurn, ?_, ?_⟩
    · rw [stepsLeft_engineTurn hscan, hleft, Nat.sub_sub]
    · cases hrun : (engineTurn^[n] (accept m dw dh ow oh a)).busy with
      | false => rwa [engineTurn_idle hrun]
      | true => exact hprogress.engineTurn hrun (hscan.scanning hrun)

end GridRun

/-- The grid command of mode `m` over the data region `dw` by `dh`, accepted in `a`, has ended in `u` with its
whole result in GO (R175, R205). -/
structure GridComplete (m : Mode) (dw dh : Dim) (ow oh : ODim) (a u : State) : Prop where
  busy : u.busy = false
  done : u.done = true
  oW : u.oW = ow
  oH : u.oH = oh
  ga : u.ga = a.ga
  gb : u.gb = a.gb
  last : 0 < dw.toNat ∧ 0 < dh.toNat → u.curI.toNat + 1 = dw.toNat ∧ u.curJ.toNat + 1 = dh.toNat
  origin : dw.toNat = 0 ∨ dh.toNat = 0 → u.curI = 0#16 ∧ u.curJ = 0#16
  written : ∀ x y, x / m.scale < dw.toNat → y / m.scale < dh.toNat → u.pixel .go x y = outPixel m x y a
  kept : ∀ x y, dw.toNat ≤ x / m.scale ∨ dh.toNat ≤ y / m.scale → u.pixel .go x y = a.pixel .go x y

/-- With the engine at rest every data coordinate has been passed. -/
theorem passed_idle {s : State} (hb : s.busy = false) (i j : Nat) :
    Passed s i j ↔ i < s.dataW.toNat ∧ j < s.dataH.toNat := by
  simp [Passed, hb]

@[simp] theorem accept_oW (m : Mode) (dw dh : Dim) (ow oh : ODim) (s : State) :
    (accept m dw dh ow oh s).oW = ow := by
  unfold accept; split <;> rfl

@[simp] theorem accept_oH (m : Mode) (dw dh : Dim) (ow oh : ODim) (s : State) :
    (accept m dw dh ow oh s).oH = oh := by
  unfold accept; split <;> rfl

/-- The registers the command latched and the inputs are after any number of engine turns what they were. -/
theorem iterate_engineTurn_same (n : Nat) (s : State) :
    LatchSame s (engineTurn^[n] s) ∧ (engineTurn^[n] s).ga = s.ga ∧ (engineTurn^[n] s).gb = s.gb := by
  rw [iterate_engineTurn_frame]
  exact ⟨⟨rfl, rfl, rfl, rfl, rfl⟩, rfl, rfl⟩

/-- After one turn for each data coordinate the command has ended. -/
theorem gridComplete_iterate {a : State} (hb : a.busy = false) (m : Mode) (dw dh : Dim) (ow oh : ODim) :
    GridComplete m dw dh ow oh a (engineTurn^[dw.toNat * dh.toNat] (accept m dw dh ow oh a)) := by
  obtain ⟨⟨_, how, hoh, _, _⟩, hga, hgb⟩ :=
    iterate_engineTurn_same (dw.toNat * dh.toNat) (accept m dw dh ow oh a)
  obtain ⟨hscan, hleft, hprogress⟩ := iterate_engineTurn_accept hb m dw dh ow oh (dw.toNat * dh.toNat)
  obtain ⟨hga', hgb', _⟩ := (accept_frame m dw dh ow oh a).1.stores
  generalize engineTurn^[dw.toNat * dh.toNat] (accept m dw dh ow oh a) = u at *
  have hidle : u.busy = false := by
    rw [← Bool.not_eq_true, hscan.busy_iff, hleft, Nat.sub_self]
    exact Nat.lt_irrefl 0
  have hpassed := passed_idle hidle
  have hlast := hscan.last hidle
  have horigin := hscan.origin
  rw [hprogress.dataW, hprogress.dataH] at hlast horigin
  simp only [hprogress.dataW, hprogress.dataH] at hpassed
  exact {
    busy := hidle
    done := by rw [hscan.done, hidle]; rfl
    oW := how.trans (accept_oW ..)
    oH := hoh.trans (accept_oH ..)
    ga := hga.trans hga'
    gb := hgb.trans hgb'
    last := hlast
    origin := horigin
    written := fun x y hx hy => hprogress.written x y ((hpassed _ _).mpr ⟨hx, hy⟩)
    kept := fun x y hxy => hprogress.kept x y fun hp => by
      have := (hpassed _ _).mp hp
      omega }

/-- With no other move pending a grid command runs for exactly one step for each data coordinate, and then has
ended (R237, log entry 3). -/
theorem accept_run {a : State} (hb : a.busy = false) (hq : a.inputs = []) (m : Mode) (dw dh : Dim) (ow oh : ODim) :
    ∃ u, Host.Core.run Sys2Proof.core (dw.toNat * dh.toNat) (accept m dw dh ow oh a) = .next u ∧
      (∀ n, n < dw.toNat * dh.toNat → ∃ w, Host.Core.run Sys2Proof.core n (accept m dw dh ow oh a) = .next w ∧
        w.busy = true ∧ w.done = false) ∧
      GridComplete m dw dh ow oh a u := by
  have hquiet : (accept m dw dh ow oh a).inputs = [] := by
    obtain ⟨_, hin, _, _⟩ := (accept_frame m dw dh ow oh a).1.outside
    exact hin.trans hq
  refine ⟨_, run_quiet hquiet _, fun n hn => ⟨_, run_quiet hquiet n, ?_⟩, gridComplete_iterate hb m dw dh ow oh⟩
  obtain ⟨hscan, hleft, _⟩ := iterate_engineTurn_accept hb m dw dh ow oh n
  have hrun := hscan.busy_iff.mpr (by omega)
  exact ⟨hrun, by rw [hscan.done, hrun]; rfl⟩

/-- Settles O52: the run of an accepted grid command, for the overlap that ENCODE latches. -/
theorem encodeRunCompletes : Obligations.EncodeRunCompletes := by
  intro s hb hq dw dh
  have hw : (minDim s.aW s.bW).toNat = dw := toNat_minDim s.aW s.bW
  have hh : (minDim s.aH s.bH).toNat = dh := toNat_minDim s.aH s.bH
  obtain ⟨u, hrun, hrunning, hu⟩ := accept_run hb hq .encode (minDim s.aW s.bW) (minDim s.aH s.bH)
    (minDim s.aW s.bW ++ 0#1) (minDim s.aH s.bH ++ 0#1)
  obtain ⟨hbusy, hdone, how, hoh, hga, hgb, hlast, horigin, hwritten, hkept⟩ := hu
  rw [hw, hh] at hrun hrunning hlast horigin
  simp only [hw, hh, Mode.scale] at hwritten hkept
  refine ⟨_, u, exec_encode_idle hb, hrun, hrunning, hbusy, hdone, ?_, ?_, hga, hgb, hlast,
    horigin, fun i j k hi hj hk => ?_, fun x y hxy => hkept x y (by omega)⟩
  · rw [how, toNat_minDim_append]
  · rw [hoh, toNat_minDim_append]
  · obtain ⟨hx, hy, hindex⟩ := blockIndex_of_coord i j hk
    have hout := hwritten (2 * i + k % 2) (2 * j + k / 2)
    rw [outPixel, hx, hy, hindex] at hout
    exact hout hi hj

end Sys2Proof.Machine
end

section
/-! The stego_decoder_datapath (45_stego_decoder_datapath.md): each channel of the recovered pixel is an `extract`
of that channel of the block, DECBLK puts the pixel in RES0, DECODE latches half the encoded grid, and the engine
recovers one pixel a step. -/

namespace Sys2Proof.Machine

/-! ### The recovered pixel, channel by channel -/

/-- The channels do not mix (R200). -/
theorem chan_decBlock {c : Nat} (hc : c < 3) (p : Quad Pixel) : chan c (decBlock p) = extract (p.map (chan c)) := by
  interval_cases c <;> simp [decBlock]

/-- Settles O12: channel `c` is an `extract`, which concatenates the low groups of its inputs. -/
theorem decBlockChannels : Obligations.DecBlockChannels := fun p c hc => by
  rw [chan_decBlock hc, extract_wiring]
  rfl

/-- Two pixels are equal if each of their channels is. -/
theorem pixel_ext_chan {p q : Pixel} (h : ∀ c, c < 3 → chan c p = chan c q) : p = q :=
  pixel_ext (h 0 (by decide)) (h 1 (by decide)) (h 2 (by decide))

/-- A channel of a block, over its four pixels, is a `merge` (R170). -/
theorem map_chan_encBlock {c : Nat} (hc : c < 3) (p q : Pixel) :
    (encBlock p q).map (chan c) = merge (chan c p) (chan c q) :=
  Quad.ext_get fun k _ => by rw [Quad.get_map, chan_encBlock_get hc]

/-- The secret pixel comes back from its block, whatever the carrier (R207). -/
@[simp] theorem decBlock_encBlock (p q : Pixel) : decBlock (encBlock p q) = q :=
  pixel_ext_chan fun c hc => by rw [chan_decBlock hc, map_chan_encBlock hc, extract_merge]

/-- `dec_block` sees bits 1:0 of the channels only (R208). -/
theorem decBlock_congr_low {a b : Quad Pixel}
    (h : ∀ c k, c < 3 → k < 4 → (chan c (a.get k)).extractLsb' 0 2 = (chan c (b.get k)).extractLsb' 0 2) :
    decBlock a = decBlock b := by
  refine pixel_ext_chan fun c hc => ?_
  rw [chan_decBlock hc, chan_decBlock hc]
  refine extract_congr_low fun k hk => ?_
  rw [Quad.get_map, Quad.get_map, h c k hc hk]

/-- Settles O13: in each channel `extract` inverts `merge` and sees the low groups only. -/
theorem decBlockInvertsEncBlock : Obligations.DecBlockInvertsEncBlock :=
  ⟨decBlock_encBlock, fun _ _ => decBlock_congr_low⟩

/-! ### DECBLK -/

theorem exec_decblk_idle {s : State} (hb : s.busy = false) :
    exec .decblk s = .next (s.setRes0 (resultPixel (decBlock (operandBlock s)))) := by
  rw [exec_decblk, issue_idle _ _ hb]

/-- A channel of the pixel DECBLK recovers, from the OP registers (R202). -/
theorem chan_decBlock_operandBlock (s : State) {c : Nat} (hc : c < 3) : chan c (decBlock (operandBlock s)) =
    s.op0.extractLsb' (8 * c) 2 ++ s.op1.extractLsb' (8 * c) 2 ++ s.op2.extractLsb' (8 * c) 2 ++
      s.op3.extractLsb' (8 * c) 2 := by
  rw [decBlockChannels _ _ hc]
  simp [operandBlock, chan_pixelOf hc, extractLsb'_lane]

/-- `zext_32` of a pixel. -/
theorem resultPixel_eq_append (p : Pixel) : resultPixel p = 0#8 ++ p := BitVec.setWidth_eq_append (by decide)

/-- The pixel result format is read back by the pixel operand format. -/
@[simp] theorem pixelOf_resultPixel (p : Pixel) : pixelOf (resultPixel p) = p := by
  rw [resultPixel_eq_append]
  exact BitVec.extractLsb'_append_eq_right

/-- A block in the pixel result format in the OP registers is a valid operand of DECBLK (R202). -/
theorem operandBlock_of_resultPixels {s : State} {b : Quad Pixel} (h0 : s.op0 = resultPixel b.e0)
    (h1 : s.op1 = resultPixel b.e1) (h2 : s.op2 = resultPixel b.e2) (h3 : s.op3 = resultPixel b.e3) :
    operandBlock s = b := by
  simp only [operandBlock, h0, h1, h2, h3, pixelOf_resultPixel]

/-- On an encoded block DECBLK returns the secret pixel (R202). -/
theorem exec_decblk_of_encBlock {s : State} {p q : Pixel} (hb : s.busy = false)
    (h : operandBlock s = encBlock p q) : exec .decblk s = .next (s.setRes0 (0#8 ++ q)) := by
  rw [exec_decblk_idle hb, h, decBlock_encBlock, resultPixel_eq_append]

/-- Settles O21, from the channels of the recovered pixel, and from the block ENCBLK left in the RES registers,
which `dec_block` undoes. -/
theorem decblkWritesPixel : Obligations.DecblkWritesPixel := by
  constructor
  · intro s t hb ht
    rw [exec_encblk, issue_idle _ _ hb] at ht
    cases ht
    exact exec_decblk_of_encBlock (p := operandP s) (q := operandQ s) hb
      (operandBlock_of_resultPixels rfl rfl rfl rfl)
  · intro s channel
    refine ⟨fun hb => ?_, exec_busy_recorded (by decide), decode_encode .decblk⟩
    have hchan (c : Nat) (hc : c < 3) : chan c (decBlock (operandBlock s)) = channel c :=
      chan_decBlock_operandBlock s hc
    rw [exec_decblk_idle hb, resultPixel_eq, hchan 0 (by decide), hchan 1 (by decide), hchan 2 (by decide)]
    rfl

/-! ### DECODE: acceptance -/

/-- `d // 2` is a shift (00_scope.md R10 (e)). -/
theorem halfDim_eq (d : Dim) : halfDim d = d >>> 1 := by
  refine BitVec.eq_of_toNat_eq ?_
  rw [toNat_halfDim, BitVec.toNat_ushiftRight, Nat.shiftRight_one]

theorem toNat_shiftRight_one (d : Dim) : (d >>> 1).toNat = d.toNat / 2 := by
  rw [← halfDim_eq, toNat_halfDim]

/-- A data dimension as an output dimension (R203). -/
theorem setWidth_dim (d : Dim) : d.setWidth 17 = 0#1 ++ d := BitVec.setWidth_eq_append (by decide)

theorem toNat_zero_append_dim (d : Dim) : (0#1 ++ d).toNat = d.toNat := by
  rw [← setWidth_dim, BitVec.toNat_setWidth_of_le (by decide)]

/-- DECODE at rest is the acceptance of half the encoded grid, as data region and as output (R203). -/
theorem exec_decode_idle {s : State} (hb : s.busy = false) : exec .decode s =
    .next (accept .decode (s.aW >>> 1) (s.aH >>> 1) (0#1 ++ s.aW >>> 1) (0#1 ++ s.aH >>> 1) s) := by
  rw [exec_decode, issue_idle _ _ hb, setWidth_dim, setWidth_dim, halfDim_eq, halfDim_eq]

/-- Settles O23, from the two outcomes of an acceptance and the issue of a command. -/
theorem decodeAcceptance : Obligations.DecodeAcceptance := by
  intro s
  refine ⟨fun hb hstart => ?_, fun hb hempty => ?_, toNat_shiftRight_one s.aW, toNat_shiftRight_one s.aH,
    exec_busy_recorded (by decide), decode_encode .decode⟩
  · exact (exec_decode_idle hb).trans (congrArg Host.Outcome.next (accept_start _ _ _ s hstart))
  · exact (exec_decode_idle hb).trans (congrArg Host.Outcome.next (accept_empty _ _ _ s hempty))

/-! ### DECODE: one step of the engine -/

/-- Settles O40, from the pixel a DECODE body writes and the frame of the engine's turn. -/
theorem decodeStepWritesPixel : Obligations.DecodeStepWritesPixel := by
  intro s hb hm i j t
  have hscale (x : Nat) : x / s.mode.scale = x := by rw [hm]; exact Nat.div_one x
  refine ⟨?_, fun x y hxy => pixel_engineTurn_kept hb (by rwa [hscale, hscale]),
    fun x y => ⟨pixel_engineTurn hb .ga x y, pixel_engineTurn hb .gb x y⟩, engineTurn_frame s⟩
  rw [pixel_engineTurn hb, engineWrites_decode hm]
  exact pixel_decodeWrites s i j

end Sys2Proof.Machine
end

section
/-! A DECODE runs to its end, and after an ENCODE whose result was carried to GA it leaves the secret in GO
(45_stego_decoder_datapath.md R205 to R207, 46_host_commands.md R237, log entry 3). -/

namespace Sys2Proof.Machine

/-- Settles O53: the run of an accepted grid command, for the half of the encoded grid that DECODE latches. -/
theorem decodeRunCompletes : Obligations.DecodeRunCompletes := by
  intro s hb hq dw dh
  have hw : (s.aW >>> 1).toNat = dw := toNat_shiftRight_one s.aW
  have hh : (s.aH >>> 1).toNat = dh := toNat_shiftRight_one s.aH
  obtain ⟨u, hrun, hrunning, hu⟩ := accept_run hb hq .decode (s.aW >>> 1) (s.aH >>> 1)
    (0#1 ++ s.aW >>> 1) (0#1 ++ s.aH >>> 1)
  obtain ⟨hbusy, hdone, how, hoh, hga, hgb, hlast, horigin, hwritten, hkept⟩ := hu
  rw [hw, hh] at hrun hrunning hlast horigin
  simp only [hw, hh, Mode.scale, Nat.div_one] at hwritten hkept
  refine ⟨_, u, exec_decode_idle hb, hrun, hrunning, hbusy, hdone, ?_, ?_, hga, hgb, hlast, horigin,
    hwritten, hkept⟩
  · rw [how, toNat_zero_append_dim, hw]
  · rw [hoh, toNat_zero_append_dim, hh]

/-! ### The round trip (R207) -/

/-- The read of block index `k` is at the coordinate ENCODE gives that index (R179, R204). -/
theorem decodeReads_get (i j : Nat) (s : State) {k : Nat} (hk : k < 4) :
    (decodeReads i j s).get k = s.pixel .ga (2 * i + k % 2) (2 * j + k / 2) := by
  interval_cases k <;> rfl

/-- What an ENCODE accepted at rest leaves when it has run to its end: its output dimensions and the encoded
grid (R175). -/
theorem encode_run_result {s t u : State} (hb : s.busy = false) (hq : s.inputs = []) (ht : exec .encode s = .next t)
    (hu : Host.Core.run Sys2Proof.core (min s.aW.toNat s.bW.toNat * min s.aH.toNat s.bH.toNat) t = .next u) :
    u.oW.toNat = 2 * min s.aW.toNat s.bW.toNat ∧ u.oH.toNat = 2 * min s.aH.toNat s.bH.toNat ∧
    ∀ i j k, i < min s.aW.toNat s.bW.toNat → j < min s.aH.toNat s.bH.toNat → k < 4 →
      u.pixel .go (2 * i + k % 2) (2 * j + k / 2) = (encBlock (s.pixel .ga i j) (s.pixel .gb i j)).get k := by
  obtain ⟨t', u', ht', hu', _, _, _, how, hoh, _, _, _, _, hwritten, _⟩ := encodeRunCompletes s hb hq
  cases ht.symm.trans ht'
  cases hu.symm.trans hu'
  exact ⟨how, hoh, hwritten⟩

/-- Settles O54: the block DECODE reads at a data coordinate is the block ENCODE left there, and `dec_block`
undoes it. -/
theorem gridRoundTrip : Obligations.GridRoundTrip := by
  refine ⟨decBlock_encBlock, ?_⟩
  intro s t u d hb hq ht hu hbd hqd hw hh hcarry dw dh
  obtain ⟨how, hoh, hencoded⟩ := encode_run_result hb hq ht hu
  obtain ⟨e, f, he, hf, _, hbusy, hdone, hfw, hfh, _, _, _, _, hdecoded, _⟩ := decodeRunCompletes d hbd hqd
  refine ⟨⟨e, f, he, hf, hbusy, hdone, hfw, hfh, fun i j hi hj => ?_⟩, by omega, by omega⟩
  have hreads : decodeReads i j d = encBlock (s.pixel .ga i j) (s.pixel .gb i j) := Quad.ext_get fun k hk => by
    rw [decodeReads_get i j d hk, hcarry _ _ (by omega) (by omega), hencoded i j k (by omega) (by omega) hk]
  calc f.pixel .go i j = decBlock (decodeReads i j d) := hdecoded i j hi hj
    _ = s.pixel .gb i j := by rw [hreads, decBlock_encBlock]

end Sys2Proof.Machine
end

section
/-! The host's commands and the engine's turn (46_host_commands.md R230, R233, R236; 70_reset_and_hazards.md
R290): a write to CMD runs the command of its word, NOP does nothing, and an engine turn advances the scan. -/

namespace Sys2Proof.Machine

/-! ### The engine's turn (R236) -/

/-- Inside a row the scan moves on by one column. -/
theorem advance_nextColumn {s : State} (hi : s.curI.toNat + 1 < s.dataW.toNat) :
    advance s = s.setCur (s.curI + 1#16) s.curJ :=
  if_pos hi

/-- At the end of a row the scan goes to the start of the next. -/
theorem advance_nextRow {s : State} (hi : ¬ s.curI.toNat + 1 < s.dataW.toNat)
    (hj : s.curJ.toNat + 1 < s.dataH.toNat) : advance s = s.setCur 0#16 (s.curJ + 1#16) :=
  (if_neg hi).trans (if_pos hj)

/-- At the last coordinate the command ends. -/
theorem advance_last {s : State} (hi : ¬ s.curI.toNat + 1 < s.dataW.toNat)
    (hj : ¬ s.curJ.toNat + 1 < s.dataH.toNat) : advance s = s.finish :=
  (if_neg hi).trans (if_neg hj)

/-- Apart from GO, a turn of the running engine is the advance of the scan. -/
theorem engineTurn_eq_advance_setGo {s : State} (hb : s.busy = true) :
    engineTurn s = (advance s).setGo (engineTurn s).go := by
  rw [engineTurn_eq hb, advance_frame s]
  rfl

/-- Settles O38, from the three outcomes of the advance. -/
theorem engineAdvance : Obligations.EngineAdvance := by
  refine fun s => ⟨engineTurn_idle, fun hb => ?_⟩
  have hturn {a : State} (ha : advance s = a) : engineTurn s = a.setGo (engineTurn s).go :=
    ha ▸ engineTurn_eq_advance_setGo hb
  exact ⟨fun hi => hturn (advance_nextColumn hi), fun hi hj => hturn (advance_nextRow hi hj),
    fun hi hj => hturn (advance_last hi hj)⟩

/-! ### A command at the port (R233) -/

/-- With `rst` at 0 a write of a command's word to CMD is that command's meaning. -/
theorem hostWrite_command {s : State} {v : Word} {i : Instr} (hr : s.rst = false) (hv : decode v = .command i) :
    hostWrite 0x00#5 v s = exec i s := by
  rw [hostWrite_released _ v hr, regWrite_cmd, issueCommand, hv]

theorem step_write {s : State} {n : RegNum} {v : Word} {rest : List Move} (hs : s.inputs = .write n v :: rest) :
    step s = hostWrite n v (s.setInputs rest) :=
  step_move hs

/-- Settles O4, from the host write at the head of the list. -/
theorem stepRunsDecodedCommand : Obligations.StepRunsDecodedCommand := fun s v _ rest hs hv =>
  ⟨fun hr => (step_write hs).trans (hostWrite_command (s := s.setInputs rest) hr hv),
    fun hr => (step_write hs).trans (hostWrite_held (s := s.setInputs rest) _ v hr)⟩

/-! ### NOP (R230) -/

theorem decode_ne_command_of_illegalWord {v : Word} (h : IllegalWord v) (i : Instr) : decode v ≠ .command i := by
  obtain ⟨_, hw⟩ := (decode_illegal_iff v).mpr h
  simp [hw]

/-- The word 0x00000010 has a bit of 31:4 set (R95). -/
theorem illegalWord_0x10 : IllegalWord 0x00000010#32 := .inl (by decide)

/-- Settles O14: NOP keeps the state, its word runs it, and bit 4 makes a word illegal. -/
theorem nopDoesNothing : Obligations.NopDoesNothing :=
  ⟨fun s => ⟨exec_nop s, fun hr => (hostWrite_command hr (decode_encode .nop)).trans (exec_nop s)⟩,
    illegalWord_0x10, decode_ne_command_of_illegalWord illegalWord_0x10 .nop⟩

end Sys2Proof.Machine
end

section
/-! The errors of the block (60_exceptions.md R250 to R255): which word raises which cause, what the record
writes and leaves, and that a pending error blocks nothing. -/

namespace Sys2Proof.Machine

/-! ### Which command raises what (R252) -/

/-- The condition on which the command `i`, issued in `s`, raises the cause: the row of `i` in R252's table. -/
inductive CommandRaises (i : Instr) (s : State) : Cause → Prop
  /-- Every command but NOP, while BUSY = 1. -/
  | whileBusy (hi : i ≠ .nop) (hb : s.busy = true) : CommandRaises i s .cmdWhileBusy
  /-- COMBINE alone, at rest, with a lane of OP0 above 3. -/
  | outOfRange (hi : i = .combine) (hb : s.busy = false) (hmask : s.op0 &&& 0xFCFCFCFC#32 ≠ 0#32) :
      CommandRaises i s .operandRange

/-- A word is its four lanes. -/
theorem word_ext_lane {v w : Word} (h : ∀ k, k < 4 → lane k v = lane k w) : v = w := by
  refine BitVec.eq_of_getLsbD_eq fun i hi => ?_
  have hbit := congrArg (BitVec.getLsbD · (i % 8)) (h (i / 8) (by omega))
  have hlow : i % 8 < 8 := Nat.mod_lt i (by decide)
  simpa only [getLsbD_lane, hlow, decide_true, Bool.true_and, Nat.div_add_mod] using hbit

/-- COMBINE's domain check as one mask of OP0, both ways (R142). -/
theorem operandGroupsInDomain_iff_mask (s : State) :
    operandGroupsInDomain s = true ↔ s.op0 &&& 0xFCFCFCFC#32 = 0#32 := by
  refine ⟨fun h => word_ext_lane fun k hk => ?_, operandGroupsInDomain_of_mask⟩
  have hmask : lane k 0xFCFCFCFC#32 = 0xFC#8 := by interval_cases k <;> rfl
  rw [lane_and, hmask, (high_bits_zero_iff _).2 ((operandGroupsInDomain_iff s).1 h k hk)]
  exact BitVec.extractLsb'_zero.symm

/-- A command on whose condition an error is raised does nothing else. -/
theorem exec_of_raises {i : Instr} {s : State} {c : Cause} (h : CommandRaises i s c) :
    exec i s = .next (raise c (encode i) s) := by
  cases h with
  | whileBusy hi hb =>
    obtain ⟨f, hf⟩ := exec_issue i hi
    rw [hf, issue_busy i f hb]
  | outOfRange hi hb hmask =>
    subst hi
    refine exec_combine_outOfRange hb ?_
    rwa [← Bool.not_eq_true, operandGroupsInDomain_iff_mask]

/-- A command on which no condition holds leaves the error record. -/
theorem exec_errSame {i : Instr} {s t : State} (h : ∀ c, ¬ CommandRaises i s c) (ht : exec i s = .next t) :
    ErrSame s t := by
  by_cases hi : i = .nop
  · subst hi
    cases ht
    exact ⟨rfl, rfl, rfl⟩
  · have hb : s.busy = false := Bool.eq_false_iff.2 fun hb => h _ (.whileBusy hi hb)
    refine (CommandOutcome.of_exec ht).err_idle hb (or_iff_not_imp_left.2 fun hc => ?_)
    rw [operandGroupsInDomain_iff_mask]
    by_contra hmask
    exact h _ (.outOfRange (not_not.1 hc) hb hmask)

/-- A command raises an error on one of the two conditions, or leaves the record. -/
theorem exec_raise_cases {i : Instr} {s t : State} (ht : exec i s = .next t) :
    (∃ c, CommandRaises i s c ∧ t = raise c (encode i) s) ∨ ((∀ c, ¬ CommandRaises i s c) ∧ ErrSame s t) := by
  by_cases h : ∃ c, CommandRaises i s c
  · obtain ⟨c, hc⟩ := h
    cases (exec_of_raises hc).symm.trans ht
    exact .inl ⟨c, hc, rfl⟩
  · rw [not_exists] at h
    exact .inr ⟨h, exec_errSame h ht⟩

/-! ### Which word raises what (R251) -/

/-- The condition of R251 on which the word `v`, written to CMD in `s`, raises the cause. -/
inductive WordRaises (v : Word) (s : State) : Cause → Prop
  /-- A word that is no command, whatever the state. -/
  | illegal (h : IllegalWord v) : WordRaises v s .illegalCmd
  /-- The word of a command that raises the cause. -/
  | command (i : Instr) (hv : v = encode i) (c : Cause) (h : CommandRaises i s c) : WordRaises v s c

/-- A write of a command's word to CMD is that command's meaning (R233). -/
theorem regWrite_encode (i : Instr) (s : State) : regWrite 0x00#5 (encode i) s = exec i s := by
  rw [regWrite_cmd, issueCommand, decode_encode]

/-- A word that raises an error is dropped: the write only records the error (R253). -/
theorem regWrite_of_raises {v : Word} {s : State} {c : Cause} (h : WordRaises v s c) :
    regWrite 0x00#5 v s = .next (raise c v s) := by
  cases h with
  | illegal h => exact issueCommand_illegal h s
  | command i hv _ h => subst hv; exact (regWrite_encode i s).trans (exec_of_raises h)

/-- A command other than NOP is refused while BUSY = 1, whatever its operands (R254, R295). -/
theorem regWrite_busy {i : Instr} {s : State} (hi : i ≠ .nop) (hb : s.busy = true) :
    regWrite 0x00#5 (encode i) s = .next (raise .cmdWhileBusy (encode i) s) :=
  regWrite_of_raises (.command i rfl _ (.whileBusy hi hb))

theorem WordRaises.illegal_of_ne_command {v : Word} (h : ∀ i, decode v ≠ .command i) (s : State) :
    WordRaises v s .illegalCmd := by
  refine .illegal ((decode_illegal_iff v).1 ?_)
  by_contra hw
  obtain ⟨i, hi⟩ := (decode_command_iff_not_illegal v).2 hw
  exact h i hi

@[simp] theorem raise_err (c : Cause) (v : Word) (s : State) : (raise c v s).err = true := by
  obtain ⟨_, h⟩ | ⟨he, h⟩ := raise_cases c v s
  · rw [h]; rfl
  · rw [h, he]

/-- The first error is the one recorded (R253). -/
theorem raise_cause {s : State} (c : Cause) (v : Word) (h : s.err = false) : (raise c v s).cause = c := by
  rw [raise_first c v h]; rfl

theorem raise_errCmd {s : State} (c : Cause) (v : Word) (h : s.err = false) : (raise c v s).errCmd = v := by
  rw [raise_first c v h]; rfl

/-- Settles O28, from the two conditions on a command and the one on a word that is none. -/
theorem whichCommandRaises : Obligations.WhichCommandRaises := by
  refine ⟨fun i s t he ht => ?_, fun v s t he hv ht => ?_⟩
  · obtain ⟨c, hc, rfl⟩ | ⟨hno, herr, _⟩ := exec_raise_cases ht
    · rw [raise_cause c _ he]
      cases hc with
      | whileBusy hi hb => simp [hi, hb, Cause.code]
      | outOfRange hi hb hmask => simp [hi, hb, hmask, Cause.code]
    · have hquiet : ¬ t.err = true := by simp [herr, he]
      have hbusy : ¬ (i ≠ .nop ∧ s.busy = true) := fun ⟨hi, hb⟩ => hno _ (.whileBusy hi hb)
      have hrange : ¬ (i = .combine ∧ s.busy = false ∧ s.op0 &&& 0xFCFCFCFC#32 ≠ 0#32) :=
        fun ⟨hi, hb, hmask⟩ => hno _ (.outOfRange hi hb hmask)
      exact ⟨iff_of_false hquiet (not_or.2 ⟨hbusy, hrange⟩), fun h => absurd h hquiet, fun h => absurd h hquiet⟩
  · cases (regWrite_of_raises (.illegal_of_ne_command hv s)).symm.trans ht
    exact ⟨raise_err _ _ _, congrArg Cause.code (raise_cause _ v he)⟩

/-! ### First error wins (R253) -/

/-- Settles O30: a word on whose condition an error is raised is `raise` and nothing else. -/
theorem firstErrorWins : Obligations.FirstErrorWins := by
  intro s t v c ht hc
  have hraises : WordRaises v s c := by
    obtain ⟨rfl, hv⟩ | ⟨rfl, hb, i, hi, hv⟩ | ⟨rfl, hb, hv, hmask⟩ := hc
    · exact .illegal hv
    · exact .command i hv _ (.whileBusy hi hb)
    · exact .command .combine hv _ (.outOfRange rfl hb hmask)
  cases (regWrite_of_raises hraises).symm.trans ht
  exact ⟨raise_recorded c v s, raise_err c v s,
    fun hie => (irq_iff _).2 (.inr ⟨raise_err c v s, (raise_frame c v s).ctrl.2.trans hie⟩)⟩

/-! ### Where ERR can rise (R250, R251) -/

theorem engineTurn_errSame (s : State) : ErrSame s (engineTurn s) := by
  rw [engineTurn_frame]
  exact ⟨rfl, rfl, rfl⟩

/-- A data register's write sets no error. -/
theorem writeData_err (r : HostReg) (v : Word) {s : State} (he : s.err = false) : (r.writeData v s).err = false := by
  cases r
  case status => simp [HostReg.writeData, statusWrite_eq, he]
  all_goals exact he

/-- A write that raises ERR went to CMD and met a condition of R251. -/
theorem regWrite_raised {n : RegNum} {v : Word} {s t : State} (ht : regWrite n v s = .next t)
    (hs : s.err = false) (hraised : t.err = true) : n = 0x00#5 ∧ ∃ c, WordRaises v s c ∧ t = s.record c v := by
  obtain ⟨hn, i, hd, hw⟩ | ⟨hn, ⟨_, hd⟩, hw⟩ | ⟨r, _, _, hw⟩ | ⟨_, hw⟩ := regWrite_cases n v s
  · obtain rfl := eq_encode_of_decode hd
    obtain ⟨c, hc, rfl⟩ | ⟨_, herr, _⟩ := exec_raise_cases (hw.symm.trans ht)
    · exact ⟨(number_of_ofNumber hn).symm, c, .command i rfl c hc, raise_first c _ hs⟩
    · cases (herr.trans hs).symm.trans hraised
  · cases hw.symm.trans ht
    exact ⟨(number_of_ofNumber hn).symm, _, .illegal (illegalWord_of_decode hd), raise_first _ v hs⟩
  · cases hw.symm.trans ht
    cases (writeData_err r v hs).symm.trans hraised
  · cases hw.symm.trans ht
    cases hs.symm.trans hraised

/-- A move that is no host write raises nothing: the engine has no error of its own (R250). -/
theorem applyMove_err {m : Move} {s t : State} (hm : ∀ n v, m ≠ .write n v) (ht : applyMove m s = .next t)
    (hs : s.err = false) : t.err = false := by
  cases m
  case write n v => exact absurd rfl (hm n v)
  case setGA | setGB | setGO =>
    cases hb : s.busy with
    | false => cases (platformWrite_idle _ hb).symm.trans ht; exact hs
    | true => cases (platformWrite_busy _ hb).symm.trans ht
  all_goals cases ht
  case engine => exact (engineTurn_errSame s).1.trans hs
  case wait => unfold hostWait; split <;> exact hs
  case assertReset => rfl
  case read | getGO | releaseReset => exact hs

/-- A move that raises ERR is a host write to CMD of a word that meets a condition of R251. -/
theorem applyMove_raised {m : Move} {s t : State} (ht : applyMove m s = .next t)
    (hs : s.err = false) (hraised : t.err = true) :
    ∃ v c, m = .write 0x00#5 v ∧ WordRaises v s c ∧ t = s.record c v := by
  by_cases hm : ∃ n v, m = .write n v
  · obtain ⟨n, v, rfl⟩ := hm
    cases hr : s.rst with
    | false =>
      obtain ⟨rfl, c, hc, rfl⟩ := regWrite_raised ((hostWrite_released n v hr).symm.trans ht) hs hraised
      exact ⟨v, c, rfl, hc, rfl⟩
    | true =>
      cases (hostWrite_held n v hr).symm.trans ht
      cases hs.symm.trans hraised
  · cases (applyMove_err (fun n v h => hm ⟨n, v, h⟩) ht hs).symm.trans hraised

/-- Settles O27: only a host write to CMD raises ERR, on a condition of R251. -/
theorem errorSources : Obligations.ErrorSources := by
  intro s t ht hs hraised
  cases hin : s.inputs with
  | nil =>
    cases (step_quiet hin).symm.trans ht
    cases ((engineTurn_errSame s).1.trans hs).symm.trans hraised
  | cons m rest =>
    obtain ⟨v, c, rfl, hc, rfl⟩ := applyMove_raised ((step_move hin).symm.trans ht) hs hraised
    refine ⟨v, rest, rfl, rfl, ?_⟩
    cases hc with
    | illegal h => exact .inl ⟨rfl, h⟩
    | command i hv _ h =>
      cases h with
      | whileBusy hi hb => exact .inr (.inl ⟨rfl, hb, i, hi, hv⟩)
      | outOfRange hi hb hmask => exact .inr (.inr ⟨rfl, hb, by rw [hv, hi]; rfl, hmask⟩)

/-! ### Two events of one clock (R254) -/

/-- The engine's step at the last data coordinate ends the command (R236). -/
theorem engineTurn_last {s : State} (hb : s.busy = true) (hi : s.curI.toNat + 1 = s.dataW.toNat)
    (hj : s.curJ.toNat + 1 = s.dataH.toNat) : (engineTurn s).busy = false ∧ (engineTurn s).done = true := by
  rw [engineTurn_eq hb, advance_last (by omega) (by omega)]
  exact ⟨rfl, rfl⟩

/-- Settles O29: the conditions of R251 exclude each other in the order of R254, and the engine's step after the
host's write ends the command and leaves the record. -/
theorem errorPriority : Obligations.ErrorPriority := by
  intro s hb he
  refine ⟨fun v hv => ⟨_, regWrite_of_raises (.illegal hv), raise_cause _ v he, raise_errCmd _ v he⟩,
    ⟨_, regWrite_busy (i := .combine) (by decide) hb, raise_cause _ _ he⟩,
    fun n v rest hin hr hi hj => ?_⟩
  obtain ⟨t, ht⟩ := hostWrite_completes n v (s.setInputs (.engine :: rest))
  obtain ⟨-, ⟨-, htin, -, -⟩, -, -, hrun⟩ := hostWriteFrame _ _ n v ht
  obtain ⟨htb, ⟨-, -, -, htw, hth⟩, ⟨hti, htj⟩, -⟩ := hrun hb
  obtain ⟨hub, hud⟩ := engineTurn_last (s := t.setInputs rest) htb (by simp [hti, htw, hi]) (by simp [htj, hth, hj])
  refine ⟨t, _, (step_write hin).trans ht, step_move htin, hub, hud, ?_⟩
  rintro i rfl rfl hnop
  obtain ⟨huerr, hucause, -⟩ := engineTurn_errSame (t.setInputs rest)
  rw [hostWrite_released (s := s.setInputs (.engine :: rest)) _ _ hr,
    regWrite_busy (s := s.setInputs (.engine :: rest)) hnop hb] at ht
  cases ht
  exact ⟨huerr.trans (raise_err _ _ _), hucause.trans (raise_cause _ _ he)⟩

/-! ### The record is seen by no command and not by the engine (R253, R255) -/

/-- Replace the error record. -/
@[simps] def State.setRecord (e : Bool) (c : Cause) (w : Word) (s : State) : State :=
  { s with err := e, cause := c, errCmd := w }

/-- What `ErrorRecorded` says, as one change of the record. -/
theorem ErrorRecorded.eq_setRecord {c : Cause} {v : Word} {s t : State} (h : ErrorRecorded c v s t) :
    t = s.setRecord t.err t.cause t.errCmd := by
  obtain ⟨hfirst, hlater⟩ := h
  cases he : s.err with
  | false => rw [hfirst he]; rfl
  | true => rw [hlater he]; rfl

section
variable (e : Bool) (c : Cause) (w : Word) (s : State)

theorem engineWrites_setRecord : engineWrites (s.setRecord e c w) = engineWrites s := by
  cases h : s.mode <;> simp only [engineWrites, State.setRecord_mode, h] <;> rfl

theorem advance_setRecord : advance (s.setRecord e c w) = (advance s).setRecord e c w := by
  obtain ⟨hi, h⟩ | ⟨hi, hj, h⟩ | ⟨hi, hj, h⟩ := advance_cases s <;> rw [h]
  · exact advance_nextColumn hi
  · exact advance_nextRow hi hj
  · exact advance_last hi hj

/-- The engine does not look at the record. -/
theorem engineTurn_setRecord : engineTurn (s.setRecord e c w) = (engineTurn s).setRecord e c w := by
  cases hb : s.busy with
  | false => rw [engineTurn_idle hb, engineTurn_idle (s := s.setRecord e c w) hb]
  | true =>
    rw [engineTurn_eq hb, engineTurn_eq (s := s.setRecord e c w) hb, engineWrites_setRecord, advance_setRecord]
    rfl

theorem accept_setRecord (m : Mode) (dw dh : Dim) (ow oh : ODim) :
    accept m dw dh ow oh (s.setRecord e c w) = (accept m dw dh ow oh s).setRecord e c w := by
  by_cases h : dw = 0#16 ∨ dh = 0#16
  · rw [accept_empty m ow oh s h, accept_empty m ow oh _ h]; rfl
  · rw [accept_start m ow oh s h, accept_start m ow oh _ h]; rfl

/-- With an error pending nothing more is recorded. -/
theorem raise_setRecord (c' : Cause) (v : Word) :
    raise c' v (s.setRecord true c w) = (raise c' v s).setRecord true c w := by
  rw [raise_later c' v rfl]
  obtain ⟨_, h⟩ | ⟨_, h⟩ := raise_cases c' v s
  · rw [h]; rfl
  · rw [h]

end

/-- A command whose effect ignores a pending error ignores it. -/
theorem issue_setRecord {i : Instr} {f : State → State} {s t : State} {c : Cause} {w : Word}
    (hf : f (s.setRecord true c w) = (f s).setRecord true c w) (ht : issue i f s = .next t) :
    issue i f (s.setRecord true c w) = .next (t.setRecord true c w) := by
  cases hb : s.busy with
  | false =>
    cases (issue_idle i f hb).symm.trans ht
    rw [issue_idle i f (s := s.setRecord true c w) hb, hf]
  | true =>
    cases (issue_busy i f hb).symm.trans ht
    rw [issue_busy i f (s := s.setRecord true c w) hb, raise_setRecord]

/-- A pending error blocks nothing: a command does what it does without, up to the record (R255). -/
theorem exec_setRecord {i : Instr} {s t : State} (c : Cause) (w : Word) (ht : exec i s = .next t) :
    exec i (s.setRecord true c w) = .next (t.setRecord true c w) := by
  cases i
  case nop => cases ht; rfl
  case combine =>
    rw [exec_combine] at ht ⊢
    refine issue_setRecord ?_ ht
    rw [apply_ite (State.setRecord true c w), ← raise_setRecord]
    rfl
  case encode | decode => exact issue_setRecord (accept_setRecord true c w s _ _ _ _ _) ht
  all_goals exact issue_setRecord rfl ht

/-- Settles O26: the refusal records the error, and the engine does not look at the record. -/
theorem busyRefusesCommand : Obligations.BusyRefusesCommand := by
  intro s v i hv hi hb
  obtain rfl := eq_encode_of_decode hv
  have hrec := raise_recorded .cmdWhileBusy (encode i) s
  refine ⟨_, regWrite_busy hi hb, hrec, ?_⟩
  exact (congrArg engineTurn hrec.eq_setRecord).trans (engineTurn_setRecord _ _ _ s)

/-- Settles O31, from the write of STATUS, from `raise` with an error pending, and from the commands' independence
of the record. -/
theorem errorClearAndNesting : Obligations.ErrorClearAndNesting := by
  refine ⟨fun s => ⟨rfl, fun v hv => ?_⟩, fun s v he hv => ?_, fun i s t c w _ ht => exec_setRecord c w ht⟩
  · exact (issueCommand_illegal hv _).trans (congrArg _ (raise_first _ v rfl))
  · obtain hv | ⟨hb, i, rfl⟩ := hv
    · rw [regWrite_of_raises (.illegal hv), raise_later _ v he]
    · by_cases hi : i = .nop
      · rw [regWrite_encode, hi, exec_nop]
      · rw [regWrite_busy hi hb, raise_later _ _ he]

end Sys2Proof.Machine
end

section
/-! Reset (70_reset_and_hazards.md R290, R292) and the placing of a word (log entry 9). -/

namespace Sys2Proof.Machine

/-! ### An engine step cut short -/

/-- Of writes to coordinates of their own, the first few leave each coordinate as it was or as all of them do. -/
theorem Grid.find_putAll_take {ws : List Cell} (h : ws.Pairwise fun a b => ¬ (a.x = b.x ∧ a.y = b.y))
    (n u v : Nat) (g : Grid) : Grid.find u v (Grid.putAll (ws.take n) g) = Grid.find u v g ∨
      Grid.find u v (Grid.putAll (ws.take n) g) = Grid.find u v (Grid.putAll ws g) := by
  have happ := Grid.putAll_append (ws.take n) (ws.drop n) g
  rw [List.take_append_drop] at happ
  rw [← List.take_append_drop n ws, List.pairwise_append] at h
  obtain ⟨-, -, hdistinct⟩ := h
  by_cases hlater : ∃ w ∈ ws.drop n, w.x = u ∧ w.y = v
  · obtain ⟨w, hw, rfl, rfl⟩ := hlater
    exact .inl (Grid.find_putAll_other _ g fun a ha => hdistinct a ha w hw)
  · rw [happ]
    exact .inr (Grid.find_putAll_other _ _ fun w hw hspot => hlater ⟨w, hw, hspot⟩).symm

/-- The writes of one engine step go to coordinates of their own (R174, R204). -/
theorem engineWrites_distinct (s : State) :
    (engineWrites s).Pairwise fun a b => ¬ (a.x = b.x ∧ a.y = b.y) := by
  cases hm : s.mode with
  | encode => rw [engineWrites_encode hm]; simp [encodeWrites]
  | decode => rw [engineWrites_decode hm]; simp [decodeWrites]

/-- Nothing changes when no write is let land or the engine is at rest. -/
theorem State.land_eq_self {landed : Nat} {s : State} (h : landed = 0 ∨ s.busy = false) : s.land landed = s := by
  rcases h with rfl | hb
  · exact s.land_zero
  · rw [State.land, landedWrites, hb]; rfl

theorem State.land_setInputs (landed : Nat) (ms : List Move) (s : State) :
    (s.setInputs ms).land landed = (s.land landed).setInputs ms := rfl

/-- Each pixel of GO after the writes that landed is the old one or the one of the whole step (R292). -/
theorem pixel_land (landed : Nat) (s : State) (x y : Nat) : (s.land landed).pixel .go x y = s.pixel .go x y ∨
    (s.busy = true ∧ (s.land landed).pixel .go x y = (engineTurn s).pixel .go x y) := by
  cases hb : s.busy with
  | false => rw [State.land_eq_self (.inr hb)]; exact .inl rfl
  | true =>
    rw [pixel_engineTurn hb, State.land, landedWrites, if_pos hb]
    simp only [State.pixel, State.grid, State.setGo_go]
    obtain h | h := Grid.find_putAll_take (engineWrites_distinct s) landed x y s.go <;> simp [h]

/-- A reset is the clearing of the registers after the writes that landed, with `rst` held. -/
theorem assertReset_eq (landed : Nat) (s : State) :
    assertReset landed s = (s.land landed).clearRegs.setRst true := rfl

/-- Settles O47, from the cleared registers and the pixels of a step cut short. -/
theorem resetAction : Obligations.ResetAction := by
  intro s landed rest hin
  have hstep := step_move hin
  rw [applyMove, assertReset_eq, State.land_setInputs] at hstep
  refine ⟨_, hstep, rfl, rfl, engineTurn_idle rfl, fun x y => ?_, fun hnone => ?_,
    fun n v => ⟨hostWrite_held n v rfl, regRead_cleared n true _⟩⟩
  · simpa only [pixel_setRst, pixel_clearRegs, pixel_setInputs] using pixel_land landed s x y
  · rw [State.land_eq_self hnone]; rfl

/-! ### The placed word (log entry 9) -/

/-- Settles O5: a command's word fits 32 bits, and the write placed at the head of the list runs it. -/
theorem placedWordRuns : Obligations.PlacedWordRuns := by
  intro s i
  have hcut : (encode i).toNat % 2 ^ 32 = (encode i).toNat := Nat.mod_eq_of_lt (encode i).isLt
  have hword : BitVec.ofNat 32 ((encode i).toNat % 2 ^ 32) = encode i := by
    rw [hcut, BitVec.ofNat_toNat, BitVec.setWidth_eq]
  constructor
  · rw [decodeTableWord, hword, decode_encode, if_pos (Nat.mod_lt _ (by decide))]
  · refine (step_write rfl).trans ?_
    rw [hword]
    exact hostWrite_command rfl (decode_encode i)

end Sys2Proof.Machine
end
